-- ==== Sys2Proof/Word.lean ====
section
/-! DEFINITION. The widths of the block's words (R8, R100). -/

namespace Sys2Proof

/-- A register word or a sample value: 32 bits, unsigned (R8). -/
abbrev Word := BitVec 32

/-- A halfword bus value (R70). -/
abbrev Half := BitVec 16

/-- A byte bus value (R70). -/
abbrev Byte := BitVec 8

/-- A byte offset into the 256-byte register window (R8, R70). -/
abbrev Offset := BitVec 8

/-- The 16-bit descriptor `T` that identifies an event (R100). -/
abbrev Descriptor := BitVec 16

end Sys2Proof
end

