-- ==== Sys2Proof/Config.lean ====
section
/-! DEFINITION. What no instance of the block changes (the sizes of its index spaces and the rows of the
opcode table) and the values the spec leaves open, as constants without a body. The parameters of R7 are a
record of their own, `Params` in `Sys2Proof/Machine/Parameters.lean`. -/

namespace Sys2Proof.Config

/-- The largest `N_CH` (R7): a sequence slot names one of 32 channels (R8). -/
abbrev maxCh : Nat := 32

/-- The largest `N_TRIG` (R7): `EXTSEL` names one of 32 lines (R8). -/
abbrev maxTrig : Nat := 32

/-- `UNFED` as a draw (R7, R261): what the `n`-th draw from a never-fed channel returns. FREE VALUE: no
body, so nothing can be proved of it. DESIGN CHOICE, safe (log 7). -/
opaque unfed : Nat → Word

/-- `T_CONV` where it is open (R7, R239): a positive number of ticks. FREE VALUE: no body, so nothing can
be proved of it but that it is positive. DESIGN CHOICE, safe (log 5). -/
opaque tConv : PNat

/-- The offsets of the eleven registers with behaviour or named storage (R21, R71). -/
def registerOffsets : List Offset :=
  [0x00, 0x04, 0x08, 0x0C, 0x14, 0x18, 0x30, 0x34, 0x38, 0x3C, 0x40]

/-- The inert offsets to which the opcode table gives rows of their own: the value R46 binds to
`DECLARED_INERT_OFFSETS` (D22). An instance may declare others (`Params.inertOffsets`; log 12). -/
def declaredInertOffsets : List Offset :=
  [0x10, 0x1C, 0x20, 0x24, 0x4C, 0x60, 0x64, 0x68, 0x6C, 0x80, 0x84, 0x88, 0x8C, 0xA0, 0xA4, 0xB0, 0xB4, 0xB8, 0xBC, 0xC0, 0xC4, 0xC8]

/-- An offset has no row of its own in the opcode table: no register and no offset of the bound set
stands there (R103 line 5). -/
def unmapped (off : Offset) : Bool :=
  !(registerOffsets.contains off) && !(declaredInertOffsets.contains off)

end Sys2Proof.Config
end

