-- ==== Sys2Proof/Syntax.lean ====
section
/-! DEFINITION. Events as the host delivers them, and the instruction set: one constructor per row of
spec/opcode_table.json. An "instruction" of this block is an event (R9, R100). -/

namespace Sys2Proof

/-- An event on its way to the block: the descriptor `T` (R100) and the operands that accompany it
(R101). An event uses the operands its class names and ignores the others. DESIGN CHOICE, safe: the spec
gives the operands no bits, so they travel as a record (log 3). -/
structure Event where
  /-- The 16-bit descriptor `T`. -/
  desc : Descriptor
  /-- `val` of a bus write (its low 8, 16 or 32 bits by size), or `value` of `FEEDV`. -/
  val : Word := 0
  /-- `values` of `FEEDS`; `none` is the token `ParseError`. -/
  values : Option (List Word) := some []
  /-- `repeatCount` of a feed, a signed integer whose default is 1 (R101). -/
  rep : Int := 1
  deriving DecidableEq, Repr

/-- One delivery: the virtual time that passed since the delivery before it, and the event. The sum of
these times is the `now` each event carries (R101; log 5). -/
structure Delivery where
  elapsed : Nat
  event : Event
  deriving DecidableEq, Repr

/-- The events of the block, one constructor per row of spec/opcode_table.json, in the table's order. -/
inductive Instr where
  /-- R133: `RD32 ISR`. -/
  | rd32Isr
  /-- R134: `WR32 ISR`. -/
  | wr32Isr (v : Word)
  /-- R135: `RD32 IER`. -/
  | rd32Ier
  /-- R136: `WR32 IER`. -/
  | wr32Ier (v : Word)
  /-- R137: `RD32 CR`. -/
  | rd32Cr
  /-- R138: `WR32 CR`. -/
  | wr32Cr (v : Word)
  /-- R139: `RD32 CFGR`. -/
  | rd32Cfgr
  /-- R140: `WR32 CFGR`. -/
  | wr32Cfgr (v : Word)
  /-- R141: `RD32 SMPR1`. -/
  | rd32Smpr1
  /-- R142: `WR32 SMPR1`. -/
  | wr32Smpr1 (v : Word)
  /-- R143: `RD32 SMPR2`. -/
  | rd32Smpr2
  /-- R144: `WR32 SMPR2`. -/
  | wr32Smpr2 (v : Word)
  /-- R145: `RD32 SQR1`. -/
  | rd32Sqr1
  /-- R146: `WR32 SQR1`. -/
  | wr32Sqr1 (v : Word)
  /-- R156: `RD32 SQR2`. -/
  | rd32Sqr2
  /-- R157: `WR32 SQR2`. -/
  | wr32Sqr2 (v : Word)
  /-- R158: `RD32 SQR3`. -/
  | rd32Sqr3
  /-- R159: `WR32 SQR3`. -/
  | wr32Sqr3 (v : Word)
  /-- R160: `RD32 SQR4`. -/
  | rd32Sqr4
  /-- R161: `WR32 SQR4`. -/
  | wr32Sqr4 (v : Word)
  /-- R147: `RD32 DR`. -/
  | rd32Dr
  /-- R150: `WR32 DR`. -/
  | wr32Dr (v : Word)
  /-- R148. -/
  | rd16Dr
  /-- R149. -/
  | rd8Dr
  /-- R153: halfword read at an offset other than the Data register. -/
  | rd16Narrow (off : Offset)
  /-- R153: byte read at an offset other than the Data register. -/
  | rd8Narrow (off : Offset)
  /-- R154: halfword write at any offset. -/
  | wr16Narrow (off : Offset) (v : Half)
  /-- R154: byte write at any offset. -/
  | wr8Narrow (off : Offset) (v : Byte)
  /-- R151: `RD32 0x10 (declared inert)`. -/
  | rd32Inert10
  /-- R151: `WR32 0x10 (declared inert)`. -/
  | wr32Inert10 (v : Word)
  /-- R151: `RD32 0x1C (declared inert)`. -/
  | rd32Inert1C
  /-- R151: `WR32 0x1C (declared inert)`. -/
  | wr32Inert1C (v : Word)
  /-- R151: `RD32 0x20 (declared inert)`. -/
  | rd32Inert20
  /-- R151: `WR32 0x20 (declared inert)`. -/
  | wr32Inert20 (v : Word)
  /-- R151: `RD32 0x24 (declared inert)`. -/
  | rd32Inert24
  /-- R151: `WR32 0x24 (declared inert)`. -/
  | wr32Inert24 (v : Word)
  /-- R151: `RD32 0x4C (declared inert)`. -/
  | rd32Inert4C
  /-- R151: `WR32 0x4C (declared inert)`. -/
  | wr32Inert4C (v : Word)
  /-- R151: `RD32 0x60 (declared inert)`. -/
  | rd32Inert60
  /-- R151: `WR32 0x60 (declared inert)`. -/
  | wr32Inert60 (v : Word)
  /-- R151: `RD32 0x64 (declared inert)`. -/
  | rd32Inert64
  /-- R151: `WR32 0x64 (declared inert)`. -/
  | wr32Inert64 (v : Word)
  /-- R151: `RD32 0x68 (declared inert)`. -/
  | rd32Inert68
  /-- R151: `WR32 0x68 (declared inert)`. -/
  | wr32Inert68 (v : Word)
  /-- R151: `RD32 0x6C (declared inert)`. -/
  | rd32Inert6C
  /-- R151: `WR32 0x6C (declared inert)`. -/
  | wr32Inert6C (v : Word)
  /-- R151: `RD32 0x80 (declared inert)`. -/
  | rd32Inert80
  /-- R151: `WR32 0x80 (declared inert)`. -/
  | wr32Inert80 (v : Word)
  /-- R151: `RD32 0x84 (declared inert)`. -/
  | rd32Inert84
  /-- R151: `WR32 0x84 (declared inert)`. -/
  | wr32Inert84 (v : Word)
  /-- R151: `RD32 0x88 (declared inert)`. -/
  | rd32Inert88
  /-- R151: `WR32 0x88 (declared inert)`. -/
  | wr32Inert88 (v : Word)
  /-- R151: `RD32 0x8C (declared inert)`. -/
  | rd32Inert8C
  /-- R151: `WR32 0x8C (declared inert)`. -/
  | wr32Inert8C (v : Word)
  /-- R151: `RD32 0xA0 (declared inert)`. -/
  | rd32InertA0
  /-- R151: `WR32 0xA0 (declared inert)`. -/
  | wr32InertA0 (v : Word)
  /-- R151: `RD32 0xA4 (declared inert)`. -/
  | rd32InertA4
  /-- R151: `WR32 0xA4 (declared inert)`. -/
  | wr32InertA4 (v : Word)
  /-- R151: `RD32 0xB0 (declared inert)`. -/
  | rd32InertB0
  /-- R151: `WR32 0xB0 (declared inert)`. -/
  | wr32InertB0 (v : Word)
  /-- R151: `RD32 0xB4 (declared inert)`. -/
  | rd32InertB4
  /-- R151: `WR32 0xB4 (declared inert)`. -/
  | wr32InertB4 (v : Word)
  /-- R151: `RD32 0xB8 (declared inert)`. -/
  | rd32InertB8
  /-- R151: `WR32 0xB8 (declared inert)`. -/
  | wr32InertB8 (v : Word)
  /-- R151: `RD32 0xBC (declared inert)`. -/
  | rd32InertBC
  /-- R151: `WR32 0xBC (declared inert)`. -/
  | wr32InertBC (v : Word)
  /-- R151: `RD32 0xC0 (declared inert)`. -/
  | rd32InertC0
  /-- R151: `WR32 0xC0 (declared inert)`. -/
  | wr32InertC0 (v : Word)
  /-- R151: `RD32 0xC4 (declared inert)`. -/
  | rd32InertC4
  /-- R151: `WR32 0xC4 (declared inert)`. -/
  | wr32InertC4 (v : Word)
  /-- R151: `RD32 0xC8 (declared inert)`. -/
  | rd32InertC8
  /-- R151: `WR32 0xC8 (declared inert)`. -/
  | wr32InertC8 (v : Word)
  /-- R152: word read at an unmapped offset. -/
  | rd32Unmapped (off : Offset)
  /-- R152: word write at an unmapped offset. -/
  | wr32Unmapped (off : Offset) (v : Word)
  /-- R122: bus access with the reserved size code 3, with its direction bit and offset. -/
  | busSizeCode3 (write : Bool) (off : Offset)
  /-- R220: a trigger line has changed to `level`. -/
  | edge (line : BitVec 5) (level : Bool)
  /-- R238: the conversion timer expires. -/
  | expire
  /-- R252: feed one repeatable value; `ch` is the 8 bits the descriptor carries. -/
  | feedv (ch : BitVec 8) (value : Word) (rep : Int)
  /-- R253: feed a list of values; `none` is the token `ParseError`. -/
  | feeds (ch : BitVec 8) (values : Option (List Word)) (rep : Int)
  /-- R300: the reset source. -/
  | reset
  /-- R122: a descriptor no agent can produce. -/
  | otherDescriptor (desc : Descriptor)
  deriving DecidableEq, Repr

end Sys2Proof
end

