-- ==== Sys2Proof/WellFormed.lean ====
section
/-! DEFINITION. Which instructions are the meaning of some event: the operand checks that the decoding
order of R103 makes. -/

namespace Sys2Proof

/-- Masks and patterns of the event classes of R100 and R102 taken whole (the line and size refinements
of R103 inside class 0 stay inside its first entry): a descriptor that fits none of them is one no agent
can produce (R122). -/
def eventClasses : List (Descriptor × Descriptor) :=
  [(0xF800, 0x0000), (0xFEE0, 0x0800), (0xFFFF, 0x1000), (0xFF00, 0x1800), (0xFF00, 0x2000),
   (0xFFFF, 0x2800)]

/-- Whether a descriptor belongs to one of the event classes (R100, R103). -/
def isEventDescriptor (d : Descriptor) : Bool :=
  eventClasses.any fun c => d &&& c.1 == c.2

/-- An instruction is well formed when it is the first row of R103 that its own descriptor matches: a
narrow read is not the Data register's, an unmapped access is unmapped, and a descriptor kept as "any
other" belongs to no event class. -/
def Instr.wellFormed (i : Instr) : Bool :=
  match i with
  | .rd16Narrow off | .rd8Narrow off => off != 0x40
  | .rd32Unmapped off | .wr32Unmapped off _ => Config.unmapped off
  | .otherDescriptor desc => !isEventDescriptor desc
  | .rd32Isr | .wr32Isr _ | .rd32Ier | .wr32Ier _ | .rd32Cr | .wr32Cr _ | .rd32Cfgr | .wr32Cfgr _
  | .rd32Smpr1 | .wr32Smpr1 _ | .rd32Smpr2 | .wr32Smpr2 _ | .rd32Sqr1 | .wr32Sqr1 _ | .rd32Sqr2 | .wr32Sqr2 _
  | .rd32Sqr3 | .wr32Sqr3 _ | .rd32Sqr4 | .wr32Sqr4 _ | .rd32Dr | .wr32Dr _ | .rd16Dr | .rd8Dr
  | .wr16Narrow _ _ | .wr8Narrow _ _ | .rd32Inert10 | .wr32Inert10 _ | .rd32Inert1C | .wr32Inert1C _
  | .rd32Inert20 | .wr32Inert20 _ | .rd32Inert24 | .wr32Inert24 _ | .rd32Inert4C | .wr32Inert4C _
  | .rd32Inert60 | .wr32Inert60 _ | .rd32Inert64 | .wr32Inert64 _ | .rd32Inert68 | .wr32Inert68 _
  | .rd32Inert6C | .wr32Inert6C _ | .rd32Inert80 | .wr32Inert80 _ | .rd32Inert84 | .wr32Inert84 _
  | .rd32Inert88 | .wr32Inert88 _ | .rd32Inert8C | .wr32Inert8C _ | .rd32InertA0 | .wr32InertA0 _
  | .rd32InertA4 | .wr32InertA4 _ | .rd32InertB0 | .wr32InertB0 _ | .rd32InertB4 | .wr32InertB4 _
  | .rd32InertB8 | .wr32InertB8 _ | .rd32InertBC | .wr32InertBC _ | .rd32InertC0 | .wr32InertC0 _
  | .rd32InertC4 | .wr32InertC4 _ | .rd32InertC8 | .wr32InertC8 _ | .busSizeCode3 _ _ | .edge _ _ | .expire
  | .feedv _ _ _ | .feeds _ _ _ | .reset => true

end Sys2Proof
end

