-- ==== Sys2Proof/Decode.lean ====
section
/-! DEFINITION. From an event to the instruction it is (R103), and back (R102). Decoding is total: an
event no row names is the last row's instruction, which the machine refuses by name (R122). -/

namespace Sys2Proof

/-- `T[7:0]`, the field `low` (R100): an offset or a channel index. -/
def lowByte (d : Descriptor) : BitVec 8 := d.extractLsb' 0 8

/-- A row of spec/opcode_table.json: it matches a descriptor `T` when `T & mask = pattern` (R103). -/
structure Row where
  mask : Descriptor
  pattern : Descriptor
  build : Event → Instr

/-- Rows of the opcode table: word accesses to the eleven registers and the narrow Data-register reads (R103 lines 1 and 2). -/
def registerRows : List Row :=
  [⟨0xFFFF, 0x0200, fun _ => .rd32Isr⟩,
   ⟨0xFFFF, 0x0600, fun e => .wr32Isr e.val⟩,
   ⟨0xFFFF, 0x0204, fun _ => .rd32Ier⟩,
   ⟨0xFFFF, 0x0604, fun e => .wr32Ier e.val⟩,
   ⟨0xFFFF, 0x0208, fun _ => .rd32Cr⟩,
   ⟨0xFFFF, 0x0608, fun e => .wr32Cr e.val⟩,
   ⟨0xFFFF, 0x020C, fun _ => .rd32Cfgr⟩,
   ⟨0xFFFF, 0x060C, fun e => .wr32Cfgr e.val⟩,
   ⟨0xFFFF, 0x0214, fun _ => .rd32Smpr1⟩,
   ⟨0xFFFF, 0x0614, fun e => .wr32Smpr1 e.val⟩,
   ⟨0xFFFF, 0x0218, fun _ => .rd32Smpr2⟩,
   ⟨0xFFFF, 0x0618, fun e => .wr32Smpr2 e.val⟩,
   ⟨0xFFFF, 0x0230, fun _ => .rd32Sqr1⟩,
   ⟨0xFFFF, 0x0630, fun e => .wr32Sqr1 e.val⟩,
   ⟨0xFFFF, 0x0234, fun _ => .rd32Sqr2⟩,
   ⟨0xFFFF, 0x0634, fun e => .wr32Sqr2 e.val⟩,
   ⟨0xFFFF, 0x0238, fun _ => .rd32Sqr3⟩,
   ⟨0xFFFF, 0x0638, fun e => .wr32Sqr3 e.val⟩,
   ⟨0xFFFF, 0x023C, fun _ => .rd32Sqr4⟩,
   ⟨0xFFFF, 0x063C, fun e => .wr32Sqr4 e.val⟩,
   ⟨0xFFFF, 0x0240, fun _ => .rd32Dr⟩,
   ⟨0xFFFF, 0x0640, fun e => .wr32Dr e.val⟩,
   ⟨0xFFFF, 0x0140, fun _ => .rd16Dr⟩,
   ⟨0xFFFF, 0x0040, fun _ => .rd8Dr⟩]

/-- Rows of the opcode table: every other narrow access (R103 line 3). -/
def narrowRows : List Row :=
  [⟨0xFF00, 0x0100, fun e => .rd16Narrow (lowByte e.desc)⟩,
   ⟨0xFF00, 0x0000, fun e => .rd8Narrow (lowByte e.desc)⟩,
   ⟨0xFF00, 0x0500, fun e => .wr16Narrow (lowByte e.desc) (e.val.setWidth 16)⟩,
   ⟨0xFF00, 0x0400, fun e => .wr8Narrow (lowByte e.desc) (e.val.setWidth 8)⟩]

/-- Rows of the opcode table: word accesses to the declared inert offsets (R103 line 4). -/
def inertRows : List Row :=
  [⟨0xFFFF, 0x0210, fun _ => .rd32Inert10⟩,
   ⟨0xFFFF, 0x0610, fun e => .wr32Inert10 e.val⟩,
   ⟨0xFFFF, 0x021C, fun _ => .rd32Inert1C⟩,
   ⟨0xFFFF, 0x061C, fun e => .wr32Inert1C e.val⟩,
   ⟨0xFFFF, 0x0220, fun _ => .rd32Inert20⟩,
   ⟨0xFFFF, 0x0620, fun e => .wr32Inert20 e.val⟩,
   ⟨0xFFFF, 0x0224, fun _ => .rd32Inert24⟩,
   ⟨0xFFFF, 0x0624, fun e => .wr32Inert24 e.val⟩,
   ⟨0xFFFF, 0x024C, fun _ => .rd32Inert4C⟩,
   ⟨0xFFFF, 0x064C, fun e => .wr32Inert4C e.val⟩,
   ⟨0xFFFF, 0x0260, fun _ => .rd32Inert60⟩,
   ⟨0xFFFF, 0x0660, fun e => .wr32Inert60 e.val⟩,
   ⟨0xFFFF, 0x0264, fun _ => .rd32Inert64⟩,
   ⟨0xFFFF, 0x0664, fun e => .wr32Inert64 e.val⟩,
   ⟨0xFFFF, 0x0268, fun _ => .rd32Inert68⟩,
   ⟨0xFFFF, 0x0668, fun e => .wr32Inert68 e.val⟩,
   ⟨0xFFFF, 0x026C, fun _ => .rd32Inert6C⟩,
   ⟨0xFFFF, 0x066C, fun e => .wr32Inert6C e.val⟩,
   ⟨0xFFFF, 0x0280, fun _ => .rd32Inert80⟩,
   ⟨0xFFFF, 0x0680, fun e => .wr32Inert80 e.val⟩,
   ⟨0xFFFF, 0x0284, fun _ => .rd32Inert84⟩,
   ⟨0xFFFF, 0x0684, fun e => .wr32Inert84 e.val⟩,
   ⟨0xFFFF, 0x0288, fun _ => .rd32Inert88⟩,
   ⟨0xFFFF, 0x0688, fun e => .wr32Inert88 e.val⟩,
   ⟨0xFFFF, 0x028C, fun _ => .rd32Inert8C⟩,
   ⟨0xFFFF, 0x068C, fun e => .wr32Inert8C e.val⟩,
   ⟨0xFFFF, 0x02A0, fun _ => .rd32InertA0⟩,
   ⟨0xFFFF, 0x06A0, fun e => .wr32InertA0 e.val⟩,
   ⟨0xFFFF, 0x02A4, fun _ => .rd32InertA4⟩,
   ⟨0xFFFF, 0x06A4, fun e => .wr32InertA4 e.val⟩,
   ⟨0xFFFF, 0x02B0, fun _ => .rd32InertB0⟩,
   ⟨0xFFFF, 0x06B0, fun e => .wr32InertB0 e.val⟩,
   ⟨0xFFFF, 0x02B4, fun _ => .rd32InertB4⟩,
   ⟨0xFFFF, 0x06B4, fun e => .wr32InertB4 e.val⟩,
   ⟨0xFFFF, 0x02B8, fun _ => .rd32InertB8⟩,
   ⟨0xFFFF, 0x06B8, fun e => .wr32InertB8 e.val⟩,
   ⟨0xFFFF, 0x02BC, fun _ => .rd32InertBC⟩,
   ⟨0xFFFF, 0x06BC, fun e => .wr32InertBC e.val⟩,
   ⟨0xFFFF, 0x02C0, fun _ => .rd32InertC0⟩,
   ⟨0xFFFF, 0x06C0, fun e => .wr32InertC0 e.val⟩,
   ⟨0xFFFF, 0x02C4, fun _ => .rd32InertC4⟩,
   ⟨0xFFFF, 0x06C4, fun e => .wr32InertC4 e.val⟩,
   ⟨0xFFFF, 0x02C8, fun _ => .rd32InertC8⟩,
   ⟨0xFFFF, 0x06C8, fun e => .wr32InertC8 e.val⟩]

/-- Rows of the opcode table: unmapped words, size code 3, and the other classes (R103 lines 5 to 11). -/
def otherRows : List Row :=
  [⟨0xFF00, 0x0200, fun e => .rd32Unmapped (lowByte e.desc)⟩,
   ⟨0xFF00, 0x0600, fun e => .wr32Unmapped (lowByte e.desc) e.val⟩,
   ⟨0xFB00, 0x0300, fun e => .busSizeCode3 (e.desc.getLsbD 10) (lowByte e.desc)⟩,
   ⟨0xFEE0, 0x0800, fun e => .edge (e.desc.extractLsb' 0 5) (e.desc.getLsbD 8)⟩,
   ⟨0xFFFF, 0x1000, fun _ => .expire⟩,
   ⟨0xFF00, 0x1800, fun e => .feedv (lowByte e.desc) e.val e.rep⟩,
   ⟨0xFF00, 0x2000, fun e => .feeds (lowByte e.desc) e.values e.rep⟩,
   ⟨0xFFFF, 0x2800, fun _ => .reset⟩,
   ⟨0x0000, 0x0000, fun e => .otherDescriptor e.desc⟩]

/-- The opcode table in its order of priority (R103). -/
def opcodeTable : List Row := registerRows ++ narrowRows ++ inertRows ++ otherRows

/-- Whether a row matches a descriptor (R103). -/
def rowMatches (d : Descriptor) (r : Row) : Bool := d &&& r.mask == r.pattern

/-- The instruction an event is: the first row that matches its descriptor (R103). -/
def decode (e : Event) : Instr :=
  match opcodeTable.find? (rowMatches e.desc) with
  | some r => r.build e
  | none => .otherDescriptor e.desc

/-- The event of a well-formed instruction, descriptor by R102 and operands by R101. -/
def encode (i : Instr) : Event :=
  match i with
  | .rd32Isr => { desc := 0x0200 }
  | .wr32Isr v => { desc := 0x0600, val := v }
  | .rd32Ier => { desc := 0x0204 }
  | .wr32Ier v => { desc := 0x0604, val := v }
  | .rd32Cr => { desc := 0x0208 }
  | .wr32Cr v => { desc := 0x0608, val := v }
  | .rd32Cfgr => { desc := 0x020C }
  | .wr32Cfgr v => { desc := 0x060C, val := v }
  | .rd32Smpr1 => { desc := 0x0214 }
  | .wr32Smpr1 v => { desc := 0x0614, val := v }
  | .rd32Smpr2 => { desc := 0x0218 }
  | .wr32Smpr2 v => { desc := 0x0618, val := v }
  | .rd32Sqr1 => { desc := 0x0230 }
  | .wr32Sqr1 v => { desc := 0x0630, val := v }
  | .rd32Sqr2 => { desc := 0x0234 }
  | .wr32Sqr2 v => { desc := 0x0634, val := v }
  | .rd32Sqr3 => { desc := 0x0238 }
  | .wr32Sqr3 v => { desc := 0x0638, val := v }
  | .rd32Sqr4 => { desc := 0x023C }
  | .wr32Sqr4 v => { desc := 0x063C, val := v }
  | .rd32Dr => { desc := 0x0240 }
  | .wr32Dr v => { desc := 0x0640, val := v }
  | .rd16Dr => { desc := 0x0140 }
  | .rd8Dr => { desc := 0x0040 }
  | .rd16Narrow off => { desc := 0x0100 ||| off.setWidth 16 }
  | .rd8Narrow off => { desc := 0x0000 ||| off.setWidth 16 }
  | .wr16Narrow off v => { desc := 0x0500 ||| off.setWidth 16, val := v.setWidth 32 }
  | .wr8Narrow off v => { desc := 0x0400 ||| off.setWidth 16, val := v.setWidth 32 }
  | .rd32Inert10 => { desc := 0x0210 }
  | .wr32Inert10 v => { desc := 0x0610, val := v }
  | .rd32Inert1C => { desc := 0x021C }
  | .wr32Inert1C v => { desc := 0x061C, val := v }
  | .rd32Inert20 => { desc := 0x0220 }
  | .wr32Inert20 v => { desc := 0x0620, val := v }
  | .rd32Inert24 => { desc := 0x0224 }
  | .wr32Inert24 v => { desc := 0x0624, val := v }
  | .rd32Inert4C => { desc := 0x024C }
  | .wr32Inert4C v => { desc := 0x064C, val := v }
  | .rd32Inert60 => { desc := 0x0260 }
  | .wr32Inert60 v => { desc := 0x0660, val := v }
  | .rd32Inert64 => { desc := 0x0264 }
  | .wr32Inert64 v => { desc := 0x0664, val := v }
  | .rd32Inert68 => { desc := 0x0268 }
  | .wr32Inert68 v => { desc := 0x0668, val := v }
  | .rd32Inert6C => { desc := 0x026C }
  | .wr32Inert6C v => { desc := 0x066C, val := v }
  | .rd32Inert80 => { desc := 0x0280 }
  | .wr32Inert80 v => { desc := 0x0680, val := v }
  | .rd32Inert84 => { desc := 0x0284 }
  | .wr32Inert84 v => { desc := 0x0684, val := v }
  | .rd32Inert88 => { desc := 0x0288 }
  | .wr32Inert88 v => { desc := 0x0688, val := v }
  | .rd32Inert8C => { desc := 0x028C }
  | .wr32Inert8C v => { desc := 0x068C, val := v }
  | .rd32InertA0 => { desc := 0x02A0 }
  | .wr32InertA0 v => { desc := 0x06A0, val := v }
  | .rd32InertA4 => { desc := 0x02A4 }
  | .wr32InertA4 v => { desc := 0x06A4, val := v }
  | .rd32InertB0 => { desc := 0x02B0 }
  | .wr32InertB0 v => { desc := 0x06B0, val := v }
  | .rd32InertB4 => { desc := 0x02B4 }
  | .wr32InertB4 v => { desc := 0x06B4, val := v }
  | .rd32InertB8 => { desc := 0x02B8 }
  | .wr32InertB8 v => { desc := 0x06B8, val := v }
  | .rd32InertBC => { desc := 0x02BC }
  | .wr32InertBC v => { desc := 0x06BC, val := v }
  | .rd32InertC0 => { desc := 0x02C0 }
  | .wr32InertC0 v => { desc := 0x06C0, val := v }
  | .rd32InertC4 => { desc := 0x02C4 }
  | .wr32InertC4 v => { desc := 0x06C4, val := v }
  | .rd32InertC8 => { desc := 0x02C8 }
  | .wr32InertC8 v => { desc := 0x06C8, val := v }
  | .rd32Unmapped off => { desc := 0x0200 ||| off.setWidth 16 }
  | .wr32Unmapped off v => { desc := 0x0600 ||| off.setWidth 16, val := v }
  | .busSizeCode3 write off => { desc := (if write then 0x0700 else 0x0300) ||| off.setWidth 16 }
  | .edge line level => { desc := 0x0800 ||| (if level then 0x0100 else 0x0000) ||| line.setWidth 16 }
  | .expire => { desc := 0x1000 }
  | .feedv ch value rep => { desc := 0x1800 ||| ch.setWidth 16, val := value, rep := rep }
  | .feeds ch values rep => { desc := 0x2000 ||| ch.setWidth 16, values := values, rep := rep }
  | .reset => { desc := 0x2800 }
  | .otherDescriptor desc => { desc := desc }

/-- The bare event of an opcode-table word: the descriptor's bits, every operand zero (log 3). -/
def bareEvent (nbits w : Nat) : Event :=
  { desc := BitVec.ofNat 16 (w % 2 ^ nbits), val := 0, values := some [], rep := 0 }

/-- The instruction the decoder reads from an opcode-table word, numbered as the table numbers its bits. -/
def decodeTableWord (nbits w : Nat) : Option Instr := some (decode (bareEvent nbits w))

/-- The pseudo-event `ENABLE` (R123). -/
def pseudoEnable : Instr := .wr32Cr 0x1

/-- The pseudo-event `DISABLE` (R123). -/
def pseudoDisable : Instr := .wr32Cr 0x2

/-- The pseudo-event `START` (R123). -/
def pseudoStart : Instr := .wr32Cr 0x4

/-- A word holding five 5-bit slots at a 6-bit pitch from bit `6 * first` up (R111 to R113). -/
def packSlots (first : Nat) (slots : List (BitVec 5)) : Word :=
  match slots with
  | [] => 0
  | c :: rest => (c.setWidth 32 <<< (6 * first)) ||| packSlots (first + 1) rest

/-- The pseudo-event `SEQ [c0, ..., ck-1]` (R123): the word writes that set the slots, Sequence register
1, which holds the length, last. A register that holds no used slot is not written. -/
def pseudoSeq (cs : List (BitVec 5)) : List Instr :=
  (if cs.length > 14 then [.wr32Sqr4 (packSlots 0 ((cs.drop 14).take 2))] else [])
    ++ (if cs.length > 9 then [.wr32Sqr3 (packSlots 0 ((cs.drop 9).take 5))] else [])
    ++ (if cs.length > 4 then [.wr32Sqr2 (packSlots 0 ((cs.drop 4).take 5))] else [])
    ++ [.wr32Sqr1 (packSlots 1 (cs.take 4) ||| BitVec.ofNat 32 (cs.length - 1))]

end Sys2Proof
end

