-- ==== Sys2Proof/Machine/Parameters.lean ====
section
/-! DEFINITION. The parameters of R7 as the configuration record a model takes, its constraints, and the
values R7 binds. A state carries the record of its instance (R10, R301; log 12). -/

namespace Sys2Proof.Machine

/-- The parameters of the block (R7), in the table's order. The field positions are constants
(`Sys2Proof/Machine/Operands.lean`). -/
structure Params where
  /-- `N_CH`, 1..32. -/
  nCh : Fin (Config.maxCh + 1)
  /-- `N_TRIG`, 1..32. -/
  nTrig : Fin (Config.maxTrig + 1)
  /-- `T_CONV`, a positive duration (R239); none where it is open, as R7 has it. -/
  tConv : Option PNat
  /-- `BASE`, a bus address; none where it is open, as R7 has it. The block sees offsets only (R70, D34),
  so no rule reads it. -/
  base : Option Nat
  /-- `SEQLEN_RESET`, 0..16. -/
  seqLenReset : Fin 17
  /-- `ISR_W1C_MASK`. -/
  isrW1cMask : Word
  /-- `EOSMP_ON_COMPLETION` (R35). -/
  eosmpOnCompletion : Bool
  /-- `DMA_EN_OF`, by DMA-management code (R117). -/
  dmaEnOf : Vector Bool 4
  /-- `RES_MASK`, by resolution code (R118). -/
  resMask : Vector Word 8
  /-- `UNFED`; none where each pop of an unfed channel draws a value (R261). -/
  unfed : Option Word
  /-- `EDGE_REQUIRES_START` (R225). -/
  edgeRequiresStart : Bool
  /-- `STORAGE_MASK[ISR]` (R45). -/
  isrStorage : Word
  /-- `STORAGE_MASK[IER]` (R45). -/
  ierStorage : Word
  /-- `STORAGE_MASK[CR]` (R45). -/
  crStorage : Word
  /-- `STORAGE_MASK[CFGR]` (R45). -/
  cfgrStorage : Word
  /-- `STORAGE_MASK[SMPR1]` (R45). -/
  smpr1Storage : Word
  /-- `STORAGE_MASK[SMPR2]` (R45). -/
  smpr2Storage : Word
  /-- `STORAGE_MASK[SQR1]` (R45). -/
  sqr1Storage : Word
  /-- `STORAGE_MASK[SQR2]` (R45). -/
  sqr2Storage : Word
  /-- `STORAGE_MASK[SQR3]` (R45). -/
  sqr3Storage : Word
  /-- `STORAGE_MASK[SQR4]` (R45). -/
  sqr4Storage : Word
  /-- `STORAGE_MASK[DR]` (R45): 0 in every legal record, since the register's one field takes all its 32 bits
  (R47, R114). -/
  drStorage : Word
  /-- `DECLARED_INERT_OFFSETS` (R46). -/
  inertOffsets : List Offset
  deriving DecidableEq, Repr

/-- The duration of a conversion in ticks of virtual time (R239): one positive number for every
conversion, the free value where `T_CONV` is open (log 5). -/
def Params.convTime (p : Params) : Nat := (p.tConv.getD Config.tConv : PNat)

/-- `DMA_EN_OF(dmngt)` (R117). -/
def Params.dmaEnables (p : Params) (dmngt : BitVec 2) : Bool := p.dmaEnOf[dmngt.toNat]'dmngt.isLt

/-- `RES_MASK(res)` (R118). -/
def Params.resolutionMask (p : Params) (res : BitVec 3) : Word := p.resMask[res.toNat]'res.isLt

/-- The bits of the Interrupt-enable register that a write stores (R37, R136): the inert storage and
EOCIE. -/
def Params.ierStored (p : Params) : Word := p.ierStorage ||| 0x4

/-- What R7, R21, R45 and R46 ask of a record beyond the ranges of its fields. -/
structure Params.Legal (p : Params) : Prop where
  /-- R7: `N_CH` is in 1..32. -/
  some_channel : 1 ≤ p.nCh.val
  /-- R7: `N_TRIG` is in 1..32. -/
  some_line : 1 ≤ p.nTrig.val
  /-- R7: `BASE` is a multiple of 256. -/
  base_aligned : ∀ b ∈ p.base, b % 256 = 0
  /-- R7: `ISR_W1C_MASK` is a subset of 0x7. -/
  w1c_flags : p.isrW1cMask &&& 0x7 = p.isrW1cMask
  /-- R7: `DMA_EN_OF(0)` is false. -/
  dma_off : p.dmaEnables 0 = false
  /-- R45: no overlap with ADRDY, EOSMP and EOC. -/
  isr_inert : p.isrStorage &&& 0x7 = 0
  /-- R45: no overlap with EOCIE. -/
  ier_inert : p.ierStorage &&& 0x4 = 0
  /-- R45: no overlap with ADEN, ADDIS, ADSTART and ADCAL. -/
  cr_inert : p.crStorage &&& 0x80000007 = 0
  /-- R45: no overlap with DMNGT, RES, EXTSEL, EXTEN and CONT. -/
  cfgr_inert : p.cfgrStorage &&& 0x2FFF = 0
  /-- R45: no overlap with L and SQ1 to SQ4. -/
  sqr1_inert : p.sqr1Storage &&& 0x1F7DF7CF = 0
  /-- R45: no overlap with SQ5 to SQ9. -/
  sqr2_inert : p.sqr2Storage &&& 0x1F7DF7DF = 0
  /-- R45: no overlap with SQ10 to SQ14. -/
  sqr3_inert : p.sqr3Storage &&& 0x1F7DF7DF = 0
  /-- R45: no overlap with SQ15 and SQ16. -/
  sqr4_inert : p.sqr4Storage &&& 0x7DF = 0
  /-- R45: no overlap with RDATA, which is the whole register (R114). -/
  dr_inert : p.drStorage = 0
  /-- R46: declared inert offsets are other than the registers'. -/
  inert_unnamed : ∀ off ∈ p.inertOffsets, off ∉ Config.registerOffsets
  /-- R21: declared inert offsets are word slots; R152: no other offset is declared inert. -/
  inert_slots : ∀ off ∈ p.inertOffsets, off.toNat % 4 = 0

/-- The values R7 binds, by the decisions it names. `T_CONV` and `BASE` are open, `UNFED` is a draw. -/
def Params.bound : Params where
  nCh := 20
  nTrig := 32
  tConv := none
  base := none
  seqLenReset := 0
  isrW1cMask := 0x00000007
  eosmpOnCompletion := false
  dmaEnOf := #v[false, true, false, true]
  resMask := Vector.replicate 8 0xFFFFFFFF
  unfed := none
  edgeRequiresStart := false
  isrStorage := 0x00000000
  ierStorage := 0x00000003
  crStorage := 0x00000300
  cfgrStorage := 0x00000000
  smpr1Storage := 0x3FFFFFFF
  smpr2Storage := 0x3FFFFFFF
  sqr1Storage := 0x00000000
  sqr2Storage := 0x00000000
  sqr3Storage := 0x00000000
  sqr4Storage := 0x00000000
  drStorage := 0x00000000
  inertOffsets := Config.declaredInertOffsets

end Sys2Proof.Machine
end

