-- ==== Sys2Proof/Machine/State.lean ====
section
/-! DEFINITION. The state of the block (R20), the outputs of a step (R11), the reasons a step can stop,
and the state after construction (R50, R301). -/

namespace Sys2Proof.Machine

/-- A point of virtual time, in ticks. R200(j) and U17 leave the width and the overflow of the host's type of
virtual time to the host; the model takes the unbounded naturals, so no time ever overflows. DESIGN CHOICE,
unsafe (log 17). -/
abbrev VTime := Nat

/-- `passesLeft` of a channel: how many passes over the data remain, counting the current one (R31). -/
inductive Passes where
  | finite (n : Nat)
  | forever
  deriving DecidableEq, Repr

/-- A channel's sample source (R31). `data`, `pos` and `passesLeft` mean something only once `fed`. -/
structure Channel where
  fed : Bool
  data : List Word
  pos : Nat
  passesLeft : Passes
  deriving DecidableEq, Repr

/-- A channel at construction (R50): never fed. The other three values are a DESIGN CHOICE that nothing
can observe (log 11). -/
def Channel.unfed : Channel := { fed := false, data := [], pos := 0, passesLeft := .finite 1 }

/-- A value a bus read returns, of the read's own width (R130). -/
inductive ReadValue where
  | byte (v : Byte)
  | half (v : Half)
  | word (v : Word)
  deriving DecidableEq, Repr

/-- A line action (R11). -/
inductive LineAction where
  /-- `IRQ(level)`. -/
  | irq (level : Bool)
  /-- `DMAREQ(level)`. -/
  | dmaReq (level : Bool)
  deriving DecidableEq, Repr

/-- The errors a feed returns to the harness (R256, R271 E7 to E10). -/
inductive ConfigError where
  | channelOutOfRange
  | parseError
  | zeroRepeat
  | emptySequence
  deriving DecidableEq, Repr

/-- The result of a harness event (R11). -/
inductive HarnessResult where
  | ok
  | configError (e : ConfigError)
  deriving DecidableEq, Repr

/-- A command to the host's single-shot timer (R11, R235). -/
inductive TimerCommand where
  /-- `Arm(d)`: the block always arms for `T_CONV`. -/
  | arm (duration : Nat)
  | disarm
  deriving DecidableEq, Repr

/-- The direction of a bus access, as a diagnostic records it (R271 E3). -/
inductive Direction where
  | read
  | write
  deriving DecidableEq, Repr

/-- The diagnostics E1 to E6 (R271, R272); `bytes` is the width `n` of the access. -/
inductive Diag where
  | unmappedRead (off : Offset)
  | unmappedWrite (off : Offset)
  | narrowAccess (off : Offset) (bytes : Nat) (dir : Direction)
  | startWhileDisabled
  | enableEmptySequence
  | unmatchedTriggerLine (line : BitVec 5)
  deriving DecidableEq, Repr

/-- The outputs of a step (R11): each list in the order its entries were produced. -/
structure Outputs where
  readValue : Option ReadValue
  lines : List LineAction
  result : Option HarnessResult
  timer : List TimerCommand
  diags : List Diag
  deriving DecidableEq, Repr

/-- No output at all. -/
def Outputs.empty : Outputs :=
  { readValue := none, lines := [], result := none, timer := [], diags := [] }

/-- Why a step ends in a fault. -/
inductive Fault where
  /-- E11 (R271), raised by `Select` on a sequence position whose slot names a channel the block does not
  have (R189). The spec gives the faulting step no result state (R279). Safe. -/
  | channelOutOfRange (position : Fin 16) (channel : BitVec 5)
  /-- Raised by `Complete` in a state that breaks the precondition R190 states; no state reached from
  reset does (R32). Safe (log 9). -/
  | completionPrecondition
  deriving DecidableEq, Repr

/-- Why a step refuses. -/
inductive Refusal where
  /-- An instruction with no meaning in the model. Safe. -/
  | notModelled (mnemonic : String)
  /-- Any event offered to a faulted block (R289). Safe. -/
  | blockFaulted
  /-- `EXPIRE` while the timer is disarmed: not an event the hardware can receive (R238). Safe. -/
  | timerNotArmed
  /-- `EXPIRE` at another virtual time than the armed deadline (R238). Safe. -/
  | notAtDeadline
  /-- A delivery that takes the virtual clock past an armed deadline: the `EXPIRE` of that deadline comes
  first (R240). Safe. -/
  | deadlinePassed
  /-- A bus access with the reserved size code 3 (R103 line 6, R122). Safe. -/
  | reservedSizeCode
  /-- A descriptor no agent can produce (R103 line 11, R122), or an `EDGE` on a line the block does not have
  (R122, R221). Safe. -/
  | notAnEvent
  deriving DecidableEq, Repr

/-- The state of the block: a field for each component of R20, the inert storage that R45 gives the registers
for which R20 names none (log 18), and after `faulted` the model's own fields. -/
structure State where
  /-- Ready flag (R34). -/
  adrdy : Bool
  /-- End-of-sampling flag (R35). -/
  eosmp : Bool
  /-- End-of-conversion flag (R33). -/
  eoc : Bool
  /-- Inert storage of the Status register (R45, R104; log 18). -/
  isrStore : Word
  /-- Interrupt-enable register (R37). -/
  ier : Word
  /-- Inert storage of the Control register (R38). -/
  crStore : Word
  /-- DMA-management mode (R39). -/
  dmngt : BitVec 2
  /-- Resolution (R39). -/
  res : BitVec 3
  /-- Trigger source (R39). -/
  extsel : BitVec 5
  /-- Trigger mode and edge (R39, R116). -/
  exten : BitVec 2
  /-- Continuous mode (R39). -/
  cont : Bool
  /-- Inert storage of the Configuration register (R39). -/
  cfgrStore : Word
  /-- Sample-timing register 1 (R40). -/
  smpr1 : Word
  /-- Sample-timing register 2 (R40). -/
  smpr2 : Word
  /-- The written length field (R41). -/
  l : BitVec 4
  /-- The sixteen slots (R41 to R44): index `i` is the spec's `sq[i+1]`, sequence position `i` (R115). -/
  sq : Vector (BitVec 5) 16
  /-- Inert storage of Sequence register 1 (R45, R104; log 18). -/
  sqr1Store : Word
  /-- Inert storage of Sequence register 2 (R45, R104; log 18). -/
  sqr2Store : Word
  /-- Inert storage of Sequence register 3 (R45, R104; log 18). -/
  sqr3Store : Word
  /-- Inert storage of Sequence register 4 (R45, R104; log 18). -/
  sqr4Store : Word
  /-- The last completed conversion's value (R27). -/
  latchedResult : Word
  /-- The sequence length in force, 0..16 (R23). -/
  seqLen : Fin 17
  /-- A written length waits for the cursor to become 0 (R23). -/
  lenDirty : Bool
  /-- The sequence position pending or in flight (R24). -/
  cursor : Fin 16
  /-- Gates all conversion activity (R25). -/
  enabled : Bool
  /-- Scan mode (R25). -/
  scanActive : Bool
  /-- The channel latched for the pending conversion (R28). -/
  currentChannel : Option (Fin Config.maxCh)
  /-- The conversion timer: disarmed, or its deadline (R29). -/
  timer : Option VTime
  /-- Level of the interrupt output (R30). -/
  irq : Bool
  /-- Level of the DMA-request output (R30). -/
  dmaReq : Bool
  /-- The channels (R31): entry `c` is channel `c` of the block for `c < N_CH`; no event reaches the entries
  above. -/
  chan : Vector Channel Config.maxCh
  /-- The fault that ended the run, if any (R279; log 8). -/
  faulted : Option Fault
  /-- The parameters of this instance, which no step writes (R7, R10, R301; model's own, log 12). -/
  params : Params
  /-- The host's virtual time at the event being processed (R22, R101; model's own, log 5). -/
  now : VTime
  /-- How many free values have been drawn (model's own, log 7). -/
  draws : Nat
  /-- The events the host has yet to deliver, in its order (R79; model's own, log 1). -/
  inbox : List Delivery
  /-- The outputs of the latest step (R11; model's own, log 4). -/
  out : Outputs
  deriving DecidableEq, Repr

/-- What an event of the block answers. -/
abbrev Result := Host.Outcome State Fault Refusal

/-- The state at construction of a block with parameters `p` (R50, R301). Every register value is the
spec's; the model's own fields start as logs 1, 4, 6, 7 and 11 say. -/
def State.constructed (p : Params) : State where
  adrdy := false
  eosmp := false
  eoc := false
  isrStore := 0
  ier := 0
  crStore := 0
  dmngt := 0
  res := 0
  extsel := 0
  exten := 0
  cont := false
  cfgrStore := 0
  smpr1 := 0
  smpr2 := 0
  l := 0
  sq := Vector.replicate 16 0
  sqr1Store := 0
  sqr2Store := 0
  sqr3Store := 0
  sqr4Store := 0
  latchedResult := 0
  seqLen := p.seqLenReset
  lenDirty := false
  cursor := 0
  enabled := false
  scanActive := false
  currentChannel := none
  timer := none
  irq := false
  dmaReq := false
  chan := Vector.replicate Config.maxCh Channel.unfed
  faulted := none
  params := p
  now := 0
  draws := 0
  inbox := []
  out := Outputs.empty

/-- The state at construction with the parameters R7 binds. -/
def State.reset : State := State.constructed Params.bound

end Sys2Proof.Machine
end

