-- ==== Sys2Proof/Machine/Operands.lean ====
section
/-! DEFINITION. Operand assembly: how register words split into fields and fields make up the word a read
returns (R104 to R119), and how a repeat count is read (R120). The positions are those of R105 to R114, each
a named constant (D1). -/

namespace Sys2Proof.Machine

/-! Field positions of the Configuration register (R108). -/

/-- Lowest bit of DMNGT. -/
abbrev dmngtLo : Nat := 0
/-- Lowest bit of RES. -/
abbrev resLo : Nat := 2
/-- Lowest bit of EXTSEL. -/
abbrev extselLo : Nat := 5
/-- Lowest bit of EXTEN. -/
abbrev extenLo : Nat := 10
/-- Bit of CONT. -/
abbrev contBit : Nat := 13

/-! Command bits of the Control register (R107). -/

/-- Bit of ADEN. -/
abbrev adenBit : Nat := 0
/-- Bit of ADDIS. -/
abbrev addisBit : Nat := 1
/-- Bit of ADSTART. -/
abbrev adstartBit : Nat := 2
/-- Bit of ADCAL. -/
abbrev adcalBit : Nat := 31

/-- Distance between two slots of a Sequence register (R111 to R113). -/
abbrev slotPitch : Nat := 6

/-- DMNGT of a written word. -/
def dmngtOf (v : Word) : BitVec 2 := v.extractLsb' dmngtLo 2

/-- RES of a written word. -/
def resOf (v : Word) : BitVec 3 := v.extractLsb' resLo 3

/-- EXTSEL of a written word. -/
def extselOf (v : Word) : BitVec 5 := v.extractLsb' extselLo 5

/-- EXTEN of a written word. -/
def extenOf (v : Word) : BitVec 2 := v.extractLsb' extenLo 2

/-- CONT of a written word. -/
def contOf (v : Word) : Bool := v.getLsbD contBit

/-- L of a word written to Sequence register 1 (R111). -/
def lengthOf (v : Word) : BitVec 4 := v.extractLsb' 0 4

/-- The 5-bit slot field that begins at bit `6 * k` of a written word (R111 to R113). -/
def slotOf (v : Word) (k : Nat) : BitVec 5 := v.extractLsb' (slotPitch * k) 5

/-- A slot placed at bit `6 * k` of a word (R145, R156, R158, R160). -/
def slotAt (c : BitVec 5) (k : Nat) : Word := c.setWidth 32 <<< (slotPitch * k)

/-- The sequence length that the length field stands for (R115): `L + 1`. -/
def lengthValue (l : BitVec 4) : Fin 17 := Fin.ofNat 17 (l.toNat + 1)

/-- The trigger modes (R116). -/
inductive TriggerMode where
  | internalTimer
  | rising
  | falling
  | both
  deriving DecidableEq, Repr

/-- The trigger mode an EXTEN code stands for (R116). -/
def triggerMode (exten : BitVec 2) : TriggerMode :=
  match exten.toNat with
  | 0 => .internalTimer
  | 1 => .rising
  | 2 => .falling
  | _ => .both

/-- The channel of an index below 32 (R115, R250). Only indices below `N_CH` are ever used (R32 item 4). -/
def channelAt (n : Nat) : Fin Config.maxCh := Fin.ofNat Config.maxCh n

/-- The pass count a repeat count installs (R120, R252): negative means forever. -/
def passesOf (rep : Int) : Passes := if rep < 0 then .forever else .finite rep.toNat

/-! What a word read of each register returns (R133 to R161), the register's *view* of R13. -/

/-- Status register (R133), with its inert bits (R45). -/
def isrView (s : State) : Word :=
  (s.isrStore &&& s.params.isrStorage) ||| (BitVec.ofBool s.eoc ++ BitVec.ofBool s.eosmp ++ BitVec.ofBool s.adrdy).setWidth 32

/-- Interrupt-enable register (R135). -/
def ierView (s : State) : Word := s.ier

/-- Control register (R137). -/
def crView (s : State) : Word := (s.crStore &&& s.params.crStorage) ||| (BitVec.ofBool s.enabled).setWidth 32

/-- Configuration register (R139). -/
def cfgrView (s : State) : Word :=
  (s.cfgrStore &&& s.params.cfgrStorage) ||| ((BitVec.ofBool s.cont).setWidth 32 <<< contBit)
    ||| (s.exten.setWidth 32 <<< extenLo) ||| (s.extsel.setWidth 32 <<< extselLo)
    ||| (s.res.setWidth 32 <<< resLo) ||| (s.dmngt.setWidth 32 <<< dmngtLo)

/-- Sample-timing register 1 (R141). -/
def smpr1View (s : State) : Word := s.smpr1

/-- Sample-timing register 2 (R143). -/
def smpr2View (s : State) : Word := s.smpr2

/-- Sequence register 1 (R145): the written length field, not the length in force; with its inert bits (R45). -/
def sqr1View (s : State) : Word :=
  (s.sqr1Store &&& s.params.sqr1Storage) |||
    slotAt s.sq[3] 4 ||| slotAt s.sq[2] 3 ||| slotAt s.sq[1] 2 ||| slotAt s.sq[0] 1 ||| s.l.setWidth 32

/-- Sequence register 2 (R156), with its inert bits (R45). -/
def sqr2View (s : State) : Word :=
  (s.sqr2Store &&& s.params.sqr2Storage) |||
    slotAt s.sq[8] 4 ||| slotAt s.sq[7] 3 ||| slotAt s.sq[6] 2 ||| slotAt s.sq[5] 1 ||| slotAt s.sq[4] 0

/-- Sequence register 3 (R158), with its inert bits (R45). -/
def sqr3View (s : State) : Word :=
  (s.sqr3Store &&& s.params.sqr3Storage) |||
    slotAt s.sq[13] 4 ||| slotAt s.sq[12] 3 ||| slotAt s.sq[11] 2 ||| slotAt s.sq[10] 1 ||| slotAt s.sq[9] 0

/-- Sequence register 4 (R160), with its inert bits (R45). -/
def sqr4View (s : State) : Word :=
  (s.sqr4Store &&& s.params.sqr4Storage) ||| slotAt s.sq[15] 1 ||| slotAt s.sq[14] 0

/-- Data register (R147). -/
def drView (s : State) : Word := s.latchedResult

/-- `REG[off]` (R13): the value a word read at `off` returns, without its side effect. Zero where no
register stands (R151, R152). This is the model's read of the register window, its only memory (R48; log 13). -/
def windowView (s : State) (off : Offset) : Word :=
  if off = 0x00 then isrView s
  else if off = 0x04 then ierView s
  else if off = 0x08 then crView s
  else if off = 0x0C then cfgrView s
  else if off = 0x14 then smpr1View s
  else if off = 0x18 then smpr2View s
  else if off = 0x30 then sqr1View s
  else if off = 0x34 then sqr2View s
  else if off = 0x38 then sqr3View s
  else if off = 0x3C then sqr4View s
  else if off = 0x40 then drView s
  else 0

/-- Slots of positions 0 to 3 from a word written to Sequence register 1 (R146). -/
def storeSqr1 (v : Word) (sq : Vector (BitVec 5) 16) : Vector (BitVec 5) 16 :=
  (((sq.set 0 (slotOf v 1)).set 1 (slotOf v 2)).set 2 (slotOf v 3)).set 3 (slotOf v 4)

/-- Slots of positions 4 to 8 from a word written to Sequence register 2 (R157). -/
def storeSqr2 (v : Word) (sq : Vector (BitVec 5) 16) : Vector (BitVec 5) 16 :=
  ((((sq.set 4 (slotOf v 0)).set 5 (slotOf v 1)).set 6 (slotOf v 2)).set 7 (slotOf v 3)).set 8 (slotOf v 4)

/-- Slots of positions 9 to 13 from a word written to Sequence register 3 (R159). -/
def storeSqr3 (v : Word) (sq : Vector (BitVec 5) 16) : Vector (BitVec 5) 16 :=
  ((((sq.set 9 (slotOf v 0)).set 10 (slotOf v 1)).set 11 (slotOf v 2)).set 12 (slotOf v 3)).set 13 (slotOf v 4)

/-- Slots of positions 14 and 15 from a word written to Sequence register 4 (R161). -/
def storeSqr4 (v : Word) (sq : Vector (BitVec 5) 16) : Vector (BitVec 5) 16 :=
  (sq.set 14 (slotOf v 0)).set 15 (slotOf v 1)

end Sys2Proof.Machine
end

