-- ==== Sys2Proof/Machine/Flags.lean ====
section
/-! DEFINITION. The conditions and flag values the block computes (R33 to R35, R181, R191, R195, R223). -/

namespace Sys2Proof.Machine

/-- `last` (R190): the cursor is at the last sequence position. -/
def atLast (s : State) : Bool := s.cursor.val + 1 == s.seqLen.val

/-- The end-of-conversion value a completion computes (R191). -/
def endOfConversion (s : State) : Bool := if s.scanActive then atLast s else true

/-- `midScan` (R190, R195), evaluated before the cursor advances. -/
def midScan (s : State) : Bool := s.scanActive && !(atLast s)

/-- Whether a completion arms the timer for the next conversion (R195), evaluated before the cursor
advances: the advance, the length and the selection change nothing it reads. -/
def rearms (s : State) : Bool := s.exten == 0 && (s.cont || midScan s)

/-- `interruptEnabled` (R26): EOCIE. -/
def eocInterruptEnabled (s : State) : Bool := s.ier.getLsbD 2

/-- `dmaEnabled` (R26). -/
def dmaEnabled (s : State) : Bool := s.params.dmaEnables s.dmngt

/-- Whether an edge to `level` qualifies as a trigger in the mode of `exten` (R223). -/
def edgeQualifies (exten : BitVec 2) (level : Bool) : Bool :=
  match triggerMode exten with
  | .internalTimer => false
  | .rising => level
  | .falling => !level
  | .both => true

/-- A Status write (R134): the flags written as 1 and in `ISR_W1C_MASK` are cleared, none is set. -/
def clearFlags (v : Word) (s : State) : State :=
  { s with
    adrdy := s.adrdy && !((v &&& s.params.isrW1cMask).getLsbD 0)
    eosmp := s.eosmp && !((v &&& s.params.isrW1cMask).getLsbD 1)
    eoc := s.eoc && !((v &&& s.params.isrW1cMask).getLsbD 2) }

/-- The phases of R181. -/
inductive Phase where
  | disabled
  | idle
  | converting
  deriving DecidableEq, Repr

/-- The derived phase of a state (R181): nothing stores it. -/
def phase (s : State) : Phase :=
  if !s.enabled then .disabled
  else if s.timer.isSome || s.exten != 0 then .converting
  else .idle

end Sys2Proof.Machine
end

