-- ==== Sys2Proof/Machine/Ops.lean ====
section
/-! DEFINITION. The shared operations: accepting an event, outputs, the lines, the conversion timer, the
channels, selection, the completion, the drain, and the procedures a register write triggers. Raising the
block's one fault is the analogue of taking an exception (R279, R280: the block has no trap entry and no
return). -/

namespace Sys2Proof.Machine

/-! Sequencing -/

/-- Continue with `f` where `r` is a next state; a stop stays a stop. -/
def andThen (r : Result) (f : State → Result) : Result :=
  match r with
  | .next s => f s
  | .fault x => .fault x
  | .refused x => .refused x

/-- Process an event (R10, R11): a faulted block accepts none (R130, R289); otherwise the step begins
with no outputs. -/
def onEvent (s : State) (body : State → Result) : Result :=
  match s.faulted with
  | none => body { s with out := Outputs.empty }
  | some _ => .refused .blockFaulted

/-- `raise Fault(ChannelOutOfRange(i, c))` (R189, R279): the run ends, the step has no result state. -/
def raiseFault (position : Fin 16) (channel : BitVec 5) : Result :=
  .fault (.channelOutOfRange position channel)

/-- The block as a fault leaves it: `faulted <- name` (R279), all else without meaning. A step that
faults answers the fault itself (log 8). -/
def recordFault (f : Fault) (s : State) : State := { s with faulted := some f }

/-! Outputs (R11) -/

/-- `return v` (R13). -/
def answerRead (v : ReadValue) (s : State) : State :=
  { s with out := { s.out with readValue := some v } }

/-- `emit A` (R13). -/
def emitLine (a : LineAction) (s : State) : State :=
  { s with out := { s.out with lines := s.out.lines ++ [a] } }

/-- The result of a harness event (R252, R253). -/
def answerHarness (r : HarnessResult) (s : State) : State :=
  { s with out := { s.out with result := some r } }

/-- `emit-command` (R236, R237). -/
def commandTimer (c : TimerCommand) (s : State) : State :=
  { s with out := { s.out with timer := s.out.timer ++ [c] } }

/-- `raise Diag(d)` (R13, R272). -/
def raiseDiag (d : Diag) (s : State) : State :=
  { s with out := { s.out with diags := s.out.diags ++ [d] } }

/-! Lines -/

/-- Raise the interrupt line; `IRQ(1)` only when the level changes (R193). -/
def raiseIrq (s : State) : State :=
  if s.irq then s else emitLine (.irq true) { s with irq := true }

/-- Lower the interrupt line; `IRQ(0)` only when the level changes (R147, R300). -/
def lowerIrq (s : State) : State :=
  if s.irq then emitLine (.irq false) { s with irq := false } else s

/-- The DMA-request pulse (R192): asserted, then at once de-asserted. -/
def pulseDma (s : State) : State :=
  emitLine (.dmaReq false) { emitLine (.dmaReq true) { s with dmaReq := true } with dmaReq := false }

/-! Conversion timer -/

/-- `now + T_CONV` (R236). The spec leaves the width and the overflow of this sum to the host (R200(j), U17);
over the unbounded naturals it never overflows. DESIGN CHOICE, unsafe (log 17). -/
def nextDeadline (s : State) : VTime := s.now + s.params.convTime

/-- `ArmTimer()` (R236): idempotent, an armed timer keeps its deadline. -/
def armTimer (s : State) : State :=
  match s.timer with
  | none => commandTimer (.arm s.params.convTime) { s with timer := some (nextDeadline s) }
  | some _ => s

/-- `DisarmTimer()` (R237). -/
def disarmTimer (s : State) : State :=
  match s.timer with
  | none => s
  | some _ => commandTimer .disarm { s with timer := none }

/-! Channels -/

/-- The value a fed channel yields next (R254); none for a channel never fed, or for a record that no
feed can leave (log 10). -/
def nextSample (c : Channel) : Option Word := if c.fed then c.data[c.pos]? else none

/-- A channel after a pop (R254). -/
def popChannel (c : Channel) : Channel :=
  if !c.fed then c
  else if c.pos + 1 < c.data.length then { c with pos := c.pos + 1 }
  else
    match c.passesLeft with
    | .forever => { c with pos := 0 }
    | .finite n => if n > 1 then { c with passesLeft := .finite (n - 1), pos := 0 } else c

/-- `UNFED` (R261): the value the instance fixes, or a fresh draw of the free value (log 7). -/
def unfedValue (s : State) : Word :=
  match s.params.unfed with
  | some v => v
  | none => Config.unfed s.draws

/-- Whether `Pop(c)` draws a free value: no sample, and an instance that fixes no `UNFED` (R261). -/
def popDraws (c : Fin Config.maxCh) (s : State) : Bool :=
  (nextSample s.chan[c]).isNone && s.params.unfed.isNone

/-- The value `Pop(c)` returns (R254): the next sample, or `UNFED` where there is none (R261). -/
def popValue (c : Fin Config.maxCh) (s : State) : Word :=
  match nextSample s.chan[c] with
  | some v => v
  | none => unfedValue s

/-- The state after `Pop(c)` (R254): the channel moves on; a draw moves the count of draws. -/
def popState (c : Fin Config.maxCh) (s : State) : State :=
  { s with
    chan := s.chan.set c (popChannel s.chan[c])
    draws := if popDraws c s then s.draws + 1 else s.draws }

/-- What an accepted feed installs (R252, R253, R257): the whole source is replaced. -/
def installFeed (c : Fin Config.maxCh) (values : List Word) (rep : Int) (s : State) : State :=
  { s with chan := s.chan.set c { fed := true, data := values, pos := 0, passesLeft := passesOf rep } }

/-- What `RESET` does to a channel (R259, R300). -/
def resetChannel (c : Channel) : Channel :=
  match c.fed, c.passesLeft with
  | true, .finite _ => { c with passesLeft := .finite 1 }
  | _, _ => c

/-! Sequencer -/

/-- `ApplyLength()` (R196). -/
def applyLength (s : State) : State :=
  if s.lenDirty && s.cursor == 0 then { s with seqLen := lengthValue s.l, lenDirty := false } else s

/-- `LengthWritten()` (R197). -/
def lengthWritten (s : State) : State :=
  if s.cursor == 0 then { s with seqLen := lengthValue s.l, lenDirty := false }
  else { s with lenDirty := true }

/-- `currentChannel <- Select(i)` (R189): a live read of the slot, latched; a slot that names no channel
of the block is the block's one fault. -/
def selectChannel (i : Fin 16) (s : State) : Result :=
  if s.sq[i].toNat < s.params.nCh.val then .next { s with currentChannel := some (channelAt s.sq[i].toNat) }
  else raiseFault i s.sq[i]

/-- The cursor advance (R194), with the length in force. -/
def advanceCursor (s : State) : State :=
  { s with cursor := Fin.ofNat 16 ((s.cursor.val + 1) % s.seqLen.val) }

/-! Completion -/

/-- The first half of `Complete()` (R190) for channel `c`: pop, latch, flags, DMA pulse, interrupt, in
this order. -/
def finishConversion (c : Fin Config.maxCh) (s : State) : State :=
  let v := popValue c s
  let e := endOfConversion s
  let s := popState c s
  let s := { s with latchedResult := v &&& s.params.resolutionMask s.res, eoc := e }
  let s := if s.params.eosmpOnCompletion then { s with eosmp := true } else s
  let s := if dmaEnabled s then pulseDma s else s
  if e && eocInterruptEnabled s then raiseIrq s else s

/-- The second half of `Complete()` (R190): advance, apply a deferred length, select, re-arm. -/
def nextConversion (s : State) : Result :=
  andThen (selectChannel (applyLength (advanceCursor s)).cursor (applyLength (advanceCursor s))) fun t =>
    .next (if rearms s then armTimer t else t)

/-- `Complete()` (R190). Outside its stated precondition it has no meaning: a fault of the model's own
(log 9). -/
def complete (s : State) : Result :=
  match s.currentChannel with
  | none => .fault .completionPrecondition
  | some c =>
    if s.enabled && s.seqLen != 0 && s.timer.isNone then nextConversion (finishConversion c s)
    else .fault .completionPrecondition

/-- `repeat n times: Complete()` (R220, R224). -/
def drain (n : Nat) (s : State) : Result :=
  match n with
  | 0 => .next s
  | n + 1 => andThen (complete s) (drain n)

/-! Procedures a register write triggers -/

/-- `EnableWrite()` (R183). -/
def enableWrite (s : State) : Result :=
  if s.enabled then .next s
  else if s.seqLen = 0 then .next (raiseDiag .enableEmptySequence s)
  else selectChannel 0 { s with enabled := true, adrdy := true }

/-- `DisableWrite()` (R184). -/
def disableWrite (s : State) : State :=
  if s.enabled then
    applyLength
      { disarmTimer { s with enabled := false } with cursor := 0, currentChannel := none, scanActive := false }
  else s

/-- `StartWrite()` (R185). -/
def startWrite (s : State) : State :=
  if s.enabled then
    if s.exten = 0 then armTimer { s with scanActive := true } else { s with scanActive := true }
  else raiseDiag .startWhileDisabled s

/-- `CalibrationWrite()` (R186): no operation. -/
def calibrationWrite (s : State) : State := s

/-- `TriggerModeChanged(old, new)` (R187). -/
def triggerModeChanged (old new : BitVec 2) (s : State) : State :=
  if new ≠ 0 then disarmTimer s
  else if old ≠ 0 && s.enabled && s.scanActive then armTimer s
  else s

/-! Accesses without effect -/

/-- A word access at `off`, where no register stands: silent at an offset the instance declares inert (R151),
logged as `d` elsewhere (R152); no state change. -/
def unnamedAccess (off : Offset) (d : Diag) (s : State) : State :=
  if s.params.inertOffsets.contains off then s else raiseDiag d s

/-- A narrow access that no register supports (R153, R154): logged, no state change. -/
def narrowAccess (off : Offset) (bytes : Nat) (dir : Direction) (s : State) : State :=
  raiseDiag (.narrowAccess off bytes dir) s

/-- The side effect of every Data-register read (R147 to R149). -/
def consumeResult (s : State) : State := lowerIrq { s with eoc := false }

/-! Delivery -/

/-- The next delivery of the host, and the state in which the block processes its event: the inbox without
it, the virtual clock moved on to the time it carries (R79, R101). None when the host delivers nothing. -/
def fetchEvent (s : State) : Option (Event × State) :=
  match s.inbox with
  | [] => none
  | d :: rest => some (d.event, { s with inbox := rest, now := s.now + d.elapsed })

/-- A delivery from `s` to `s'` takes the virtual clock past an armed deadline, whose `EXPIRE` the host delivers
first (R240). -/
def passesDeadline (s s' : State) : Bool :=
  match s.timer with
  | none => false
  | some deadline => s.now ≤ deadline && deadline < s'.now

/-- The host delivers an event next, at the present virtual time. -/
def deliverFirst (e : Event) (s : State) : State :=
  { s with inbox := { elapsed := 0, event := e } :: s.inbox }

end Sys2Proof.Machine
end

