-- ==== Sys2Proof/Machine/DataRegister.lean ====
section
/-! DEFINITION. The Data register: the three reads that consume the result (R147 to R149) and the write
that does nothing (R150). -/

namespace Sys2Proof.Machine

/-- `RD32 DR` (R147). -/
def execRd32Dr (s : State) : Result :=
  onEvent s fun s => .next (answerRead (.word s.latchedResult) (consumeResult s))

/-- `RD16 DR` (R148). -/
def execRd16Dr (s : State) : Result :=
  onEvent s fun s => .next (answerRead (.half (s.latchedResult.extractLsb' 0 16)) (consumeResult s))

/-- `RD8 DR` (R149). -/
def execRd8Dr (s : State) : Result :=
  onEvent s fun s => .next (answerRead (.byte (s.latchedResult.extractLsb' 0 8)) (consumeResult s))

/-- `WR32 DR, v` (R150): the register is read-only, the value is dropped. -/
def execWr32Dr (_v : Word) (s : State) : Result :=
  onEvent s fun s => .next s

end Sys2Proof.Machine
end

