-- ==== Sys2Proof/Machine/Events.lean ====
section
/-! DEFINITION. The events that come from elsewhere than the bus: trigger edges (R220), timer expiry (R238), harness
feeds (R252, R253), reset (R300), and the descriptors the spec refuses (R122). -/

namespace Sys2Proof.Machine

/-- `EDGE line, level` (R220): mode, line match, polarity, enabled, start, then the drain. An edge on a line
the block does not have is no event of it (R122, R221). -/
def execEdge (line : BitVec 5) (level : Bool) (s : State) : Result :=
  onEvent s fun s =>
    if s.params.nTrig.val ≤ line.toNat then .refused .notAnEvent
    else if s.exten = 0 then .next s
    else if line ≠ s.extsel then .next (raiseDiag (.unmatchedTriggerLine line) s)
    else if !(edgeQualifies s.exten level) then .next s
    else if !s.enabled then .next s
    else if s.params.edgeRequiresStart && !s.scanActive then .next s
    else drain s.seqLen.val s

/-- `EXPIRE` (R238): refused while the timer is disarmed and at any time but the deadline; otherwise the
timer is consumed, and one conversion completes. -/
def execExpire (s : State) : Result :=
  onEvent s fun s =>
    match s.timer with
    | none => .refused .timerNotArmed
    | some deadline =>
      if s.now = deadline then complete { s with timer := none } else .refused .notAtDeadline

/-- `FEEDV ch, value, repeatCount` (R252). -/
def execFeedv (ch : BitVec 8) (value : Word) (rep : Int) (s : State) : Result :=
  onEvent s fun s =>
    if s.params.nCh.val ≤ ch.toNat then .next (answerHarness (.configError .channelOutOfRange) s)
    else if rep = 0 then .next (answerHarness (.configError .zeroRepeat) s)
    else .next (answerHarness .ok (installFeed (channelAt ch.toNat) [value] rep s))

/-- `FEEDS ch, values, repeatCount` (R253), the checks in the order channel, parse, repeat, empty. -/
def execFeeds (ch : BitVec 8) (values : Option (List Word)) (rep : Int) (s : State) : Result :=
  onEvent s fun s =>
    if s.params.nCh.val ≤ ch.toNat then .next (answerHarness (.configError .channelOutOfRange) s)
    else
      match values with
      | none => .next (answerHarness (.configError .parseError) s)
      | some vs =>
        if rep = 0 then .next (answerHarness (.configError .zeroRepeat) s)
        else if vs = [] then .next (answerHarness (.configError .emptySequence) s)
        else .next (answerHarness .ok (installFeed (channelAt ch.toNat) vs rep s))

/-- The registers, flags and sequencer after `RESET` (R300, R50). The DMA-request line is low (R50), the
channels keep their data (R259), `faulted` and the model's own fields stay (log 14). -/
def resetRegisters (s : State) : State :=
  { s with
    adrdy := false, eosmp := false, eoc := false
    isrStore := 0, ier := 0, crStore := 0
    dmngt := 0, res := 0, extsel := 0, exten := 0, cont := false, cfgrStore := 0
    smpr1 := 0, smpr2 := 0
    l := 0, sq := Vector.replicate 16 0
    sqr1Store := 0, sqr2Store := 0, sqr3Store := 0, sqr4Store := 0
    latchedResult := 0
    seqLen := s.params.seqLenReset, lenDirty := false, cursor := 0
    enabled := false, scanActive := false, currentChannel := none
    dmaReq := false
    chan := s.chan.map resetChannel }

/-- `RESET` (R300). -/
def execReset (s : State) : Result :=
  onEvent s fun s => .next (resetRegisters (lowerIrq (disarmTimer s)))

/-- A bus access with size code 3: not an event the host can produce, refused (R103 line 6, R122). -/
def execBusSizeCode3 (_write : Bool) (_off : Offset) (_s : State) : Result :=
  .refused .reservedSizeCode

/-- Any other descriptor: not an event of the hardware, refused (R103 line 11, R122). -/
def execOtherDescriptor (_desc : Descriptor) (_s : State) : Result :=
  .refused .notAnEvent

end Sys2Proof.Machine
end

