-- ==== Sys2Proof/Machine/InertAccess.lean ====
section
/-! DEFINITION. Accesses with no effect on the block's state: declared inert offsets (R151), unmapped words
(R152), narrow accesses (R153, R154). One definition per row of the opcode table. -/

namespace Sys2Proof.Machine

/-- A word read where no register stands (R151, R152): zero. -/
def unnamedRead (off : Offset) (s : State) : Result :=
  onEvent s fun s => .next (answerRead (.word 0) (unnamedAccess off (.unmappedRead off) s))

/-- A word write where no register stands (R151, R152): the value is dropped. -/
def unnamedWrite (off : Offset) (_v : Word) (s : State) : Result :=
  onEvent s fun s => .next (unnamedAccess off (.unmappedWrite off) s)

/-- `RD32 0x10` (R151). -/
def execRd32Inert10 (s : State) : Result := unnamedRead 0x10 s

/-- `WR32 0x10, v` (R151). -/
def execWr32Inert10 (v : Word) (s : State) : Result := unnamedWrite 0x10 v s

/-- `RD32 0x1C` (R151). -/
def execRd32Inert1C (s : State) : Result := unnamedRead 0x1C s

/-- `WR32 0x1C, v` (R151). -/
def execWr32Inert1C (v : Word) (s : State) : Result := unnamedWrite 0x1C v s

/-- `RD32 0x20` (R151). -/
def execRd32Inert20 (s : State) : Result := unnamedRead 0x20 s

/-- `WR32 0x20, v` (R151). -/
def execWr32Inert20 (v : Word) (s : State) : Result := unnamedWrite 0x20 v s

/-- `RD32 0x24` (R151). -/
def execRd32Inert24 (s : State) : Result := unnamedRead 0x24 s

/-- `WR32 0x24, v` (R151). -/
def execWr32Inert24 (v : Word) (s : State) : Result := unnamedWrite 0x24 v s

/-- `RD32 0x4C` (R151). -/
def execRd32Inert4C (s : State) : Result := unnamedRead 0x4C s

/-- `WR32 0x4C, v` (R151). -/
def execWr32Inert4C (v : Word) (s : State) : Result := unnamedWrite 0x4C v s

/-- `RD32 0x60` (R151). -/
def execRd32Inert60 (s : State) : Result := unnamedRead 0x60 s

/-- `WR32 0x60, v` (R151). -/
def execWr32Inert60 (v : Word) (s : State) : Result := unnamedWrite 0x60 v s

/-- `RD32 0x64` (R151). -/
def execRd32Inert64 (s : State) : Result := unnamedRead 0x64 s

/-- `WR32 0x64, v` (R151). -/
def execWr32Inert64 (v : Word) (s : State) : Result := unnamedWrite 0x64 v s

/-- `RD32 0x68` (R151). -/
def execRd32Inert68 (s : State) : Result := unnamedRead 0x68 s

/-- `WR32 0x68, v` (R151). -/
def execWr32Inert68 (v : Word) (s : State) : Result := unnamedWrite 0x68 v s

/-- `RD32 0x6C` (R151). -/
def execRd32Inert6C (s : State) : Result := unnamedRead 0x6C s

/-- `WR32 0x6C, v` (R151). -/
def execWr32Inert6C (v : Word) (s : State) : Result := unnamedWrite 0x6C v s

/-- `RD32 0x80` (R151). -/
def execRd32Inert80 (s : State) : Result := unnamedRead 0x80 s

/-- `WR32 0x80, v` (R151). -/
def execWr32Inert80 (v : Word) (s : State) : Result := unnamedWrite 0x80 v s

/-- `RD32 0x84` (R151). -/
def execRd32Inert84 (s : State) : Result := unnamedRead 0x84 s

/-- `WR32 0x84, v` (R151). -/
def execWr32Inert84 (v : Word) (s : State) : Result := unnamedWrite 0x84 v s

/-- `RD32 0x88` (R151). -/
def execRd32Inert88 (s : State) : Result := unnamedRead 0x88 s

/-- `WR32 0x88, v` (R151). -/
def execWr32Inert88 (v : Word) (s : State) : Result := unnamedWrite 0x88 v s

/-- `RD32 0x8C` (R151). -/
def execRd32Inert8C (s : State) : Result := unnamedRead 0x8C s

/-- `WR32 0x8C, v` (R151). -/
def execWr32Inert8C (v : Word) (s : State) : Result := unnamedWrite 0x8C v s

/-- `RD32 0xA0` (R151). -/
def execRd32InertA0 (s : State) : Result := unnamedRead 0xA0 s

/-- `WR32 0xA0, v` (R151). -/
def execWr32InertA0 (v : Word) (s : State) : Result := unnamedWrite 0xA0 v s

/-- `RD32 0xA4` (R151). -/
def execRd32InertA4 (s : State) : Result := unnamedRead 0xA4 s

/-- `WR32 0xA4, v` (R151). -/
def execWr32InertA4 (v : Word) (s : State) : Result := unnamedWrite 0xA4 v s

/-- `RD32 0xB0` (R151). -/
def execRd32InertB0 (s : State) : Result := unnamedRead 0xB0 s

/-- `WR32 0xB0, v` (R151). -/
def execWr32InertB0 (v : Word) (s : State) : Result := unnamedWrite 0xB0 v s

/-- `RD32 0xB4` (R151). -/
def execRd32InertB4 (s : State) : Result := unnamedRead 0xB4 s

/-- `WR32 0xB4, v` (R151). -/
def execWr32InertB4 (v : Word) (s : State) : Result := unnamedWrite 0xB4 v s

/-- `RD32 0xB8` (R151). -/
def execRd32InertB8 (s : State) : Result := unnamedRead 0xB8 s

/-- `WR32 0xB8, v` (R151). -/
def execWr32InertB8 (v : Word) (s : State) : Result := unnamedWrite 0xB8 v s

/-- `RD32 0xBC` (R151). -/
def execRd32InertBC (s : State) : Result := unnamedRead 0xBC s

/-- `WR32 0xBC, v` (R151). -/
def execWr32InertBC (v : Word) (s : State) : Result := unnamedWrite 0xBC v s

/-- `RD32 0xC0` (R151). -/
def execRd32InertC0 (s : State) : Result := unnamedRead 0xC0 s

/-- `WR32 0xC0, v` (R151). -/
def execWr32InertC0 (v : Word) (s : State) : Result := unnamedWrite 0xC0 v s

/-- `RD32 0xC4` (R151). -/
def execRd32InertC4 (s : State) : Result := unnamedRead 0xC4 s

/-- `WR32 0xC4, v` (R151). -/
def execWr32InertC4 (v : Word) (s : State) : Result := unnamedWrite 0xC4 v s

/-- `RD32 0xC8` (R151). -/
def execRd32InertC8 (s : State) : Result := unnamedRead 0xC8 s

/-- `WR32 0xC8, v` (R151). -/
def execWr32InertC8 (v : Word) (s : State) : Result := unnamedWrite 0xC8 v s

/-- `RD32 off`, unmapped (R152). -/
def execRd32Unmapped (off : Offset) (s : State) : Result := unnamedRead off s

/-- `WR32 off, v`, unmapped (R152). -/
def execWr32Unmapped (off : Offset) (v : Word) (s : State) : Result := unnamedWrite off v s

/-- `RD16 off`, not the Data register (R153). -/
def execRd16Narrow (off : Offset) (s : State) : Result :=
  onEvent s fun s => .next (answerRead (.half 0) (narrowAccess off 2 .read s))

/-- `RD8 off`, not the Data register (R153). -/
def execRd8Narrow (off : Offset) (s : State) : Result :=
  onEvent s fun s => .next (answerRead (.byte 0) (narrowAccess off 1 .read s))

/-- `WR16 off, v` (R154): the value is dropped. -/
def execWr16Narrow (off : Offset) (_v : Half) (s : State) : Result :=
  onEvent s fun s => .next (narrowAccess off 2 .write s)

/-- `WR8 off, v` (R154): the value is dropped. -/
def execWr8Narrow (off : Offset) (_v : Byte) (s : State) : Result :=
  onEvent s fun s => .next (narrowAccess off 1 .write s)

end Sys2Proof.Machine
end

