-- ==== Sys2Proof/Machine/RegisterReads.lean ====
section
/-! DEFINITION. Word reads of the registers (R130, R133 to R145, R156, R158, R160): each returns the
register's view and has no side effect (R77). The Data register's reads stand in `DataRegister.lean`. -/

namespace Sys2Proof.Machine

/-- `RD32 ISR` (R133). -/
def execRd32Isr (s : State) : Result :=
  onEvent s fun s => .next (answerRead (.word (isrView s)) s)

/-- `RD32 IER` (R135). -/
def execRd32Ier (s : State) : Result :=
  onEvent s fun s => .next (answerRead (.word (ierView s)) s)

/-- `RD32 CR` (R137). -/
def execRd32Cr (s : State) : Result :=
  onEvent s fun s => .next (answerRead (.word (crView s)) s)

/-- `RD32 CFGR` (R139). -/
def execRd32Cfgr (s : State) : Result :=
  onEvent s fun s => .next (answerRead (.word (cfgrView s)) s)

/-- `RD32 SMPR1` (R141). -/
def execRd32Smpr1 (s : State) : Result :=
  onEvent s fun s => .next (answerRead (.word (smpr1View s)) s)

/-- `RD32 SMPR2` (R143). -/
def execRd32Smpr2 (s : State) : Result :=
  onEvent s fun s => .next (answerRead (.word (smpr2View s)) s)

/-- `RD32 SQR1` (R145). -/
def execRd32Sqr1 (s : State) : Result :=
  onEvent s fun s => .next (answerRead (.word (sqr1View s)) s)

/-- `RD32 SQR2` (R156). -/
def execRd32Sqr2 (s : State) : Result :=
  onEvent s fun s => .next (answerRead (.word (sqr2View s)) s)

/-- `RD32 SQR3` (R158). -/
def execRd32Sqr3 (s : State) : Result :=
  onEvent s fun s => .next (answerRead (.word (sqr3View s)) s)

/-- `RD32 SQR4` (R160). -/
def execRd32Sqr4 (s : State) : Result :=
  onEvent s fun s => .next (answerRead (.word (sqr4View s)) s)

end Sys2Proof.Machine
end

