-- ==== Sys2Proof/Machine/RegisterWrites.lean ====
section
/-! DEFINITION. Word writes of the registers (R131, R134 to R146, R157, R159, R161), the fields of a register in
ascending order of their lowest bit (R132). Bits outside the fields and the storage mask are dropped
(R155). -/

namespace Sys2Proof.Machine

/-- `WR32 ISR, v` (R134), then its inert bits (R45). -/
def execWr32Isr (v : Word) (s : State) : Result :=
  onEvent s fun s => .next { clearFlags v s with isrStore := v &&& s.params.isrStorage }

/-- `WR32 IER, v` (R136): the interrupt line does not move. -/
def execWr32Ier (v : Word) (s : State) : Result :=
  onEvent s fun s => .next { s with ier := v &&& s.params.ierStored }

/-- The inert storage of a Control-register write, and the calibration bit (R138). -/
def storeControl (v : Word) (s : State) : State :=
  let s := { s with crStore := v &&& s.params.crStorage }
  if v.getLsbD adcalBit then calibrationWrite s else s

/-- `WR32 CR, v` (R138): ADEN, then ADDIS, then ADSTART, then BOOST, then ADCAL. -/
def execWr32Cr (v : Word) (s : State) : Result :=
  onEvent s fun s =>
    andThen (if v.getLsbD adenBit then enableWrite s else .next s) fun s =>
      let s := if v.getLsbD addisBit then disableWrite s else s
      let s := if v.getLsbD adstartBit then startWrite s else s
      .next (storeControl v s)

/-- `WR32 CFGR, v` (R140). -/
def execWr32Cfgr (v : Word) (s : State) : Result :=
  onEvent s fun s =>
    let old := s.exten
    let s := { s with dmngt := dmngtOf v, res := resOf v, extsel := extselOf v, exten := extenOf v }
    let s := triggerModeChanged old (extenOf v) s
    .next { s with cont := contOf v, cfgrStore := v &&& s.params.cfgrStorage }

/-- `WR32 SMPR1, v` (R142). -/
def execWr32Smpr1 (v : Word) (s : State) : Result :=
  onEvent s fun s => .next { s with smpr1 := v &&& s.params.smpr1Storage }

/-- `WR32 SMPR2, v` (R144). -/
def execWr32Smpr2 (v : Word) (s : State) : Result :=
  onEvent s fun s => .next { s with smpr2 := v &&& s.params.smpr2Storage }

/-- `WR32 SQR1, v` (R146): the length field and its side effect, then the slots and the inert bits (R45). -/
def execWr32Sqr1 (v : Word) (s : State) : Result :=
  onEvent s fun s =>
    let s := lengthWritten { s with l := lengthOf v }
    .next { s with sq := storeSqr1 v s.sq, sqr1Store := v &&& s.params.sqr1Storage }

/-- `WR32 SQR2, v` (R157), with its inert bits (R45). -/
def execWr32Sqr2 (v : Word) (s : State) : Result :=
  onEvent s fun s => .next { s with sq := storeSqr2 v s.sq, sqr2Store := v &&& s.params.sqr2Storage }

/-- `WR32 SQR3, v` (R159), with its inert bits (R45). -/
def execWr32Sqr3 (v : Word) (s : State) : Result :=
  onEvent s fun s => .next { s with sq := storeSqr3 v s.sq, sqr3Store := v &&& s.params.sqr3Storage }

/-- `WR32 SQR4, v` (R161), with its inert bits (R45). -/
def execWr32Sqr4 (v : Word) (s : State) : Result :=
  onEvent s fun s => .next { s with sq := storeSqr4 v s.sq, sqr4Store := v &&& s.params.sqr4Storage }

end Sys2Proof.Machine
end

