-- ==== Sys2Proof/Machine/Dispatch.lean ====
section
/-! DEFINITION. The dispatch: one arm per row of spec/opcode_table.json. -/

namespace Sys2Proof.Machine

def exec (i : Instr) (s : State) : Host.Outcome State Fault Refusal :=
  match i with
  | .rd32Isr => Sys2Proof.Machine.execRd32Isr s
  | .wr32Isr v => Sys2Proof.Machine.execWr32Isr v s
  | .rd32Ier => Sys2Proof.Machine.execRd32Ier s
  | .wr32Ier v => Sys2Proof.Machine.execWr32Ier v s
  | .rd32Cr => Sys2Proof.Machine.execRd32Cr s
  | .wr32Cr v => Sys2Proof.Machine.execWr32Cr v s
  | .rd32Cfgr => Sys2Proof.Machine.execRd32Cfgr s
  | .wr32Cfgr v => Sys2Proof.Machine.execWr32Cfgr v s
  | .rd32Smpr1 => Sys2Proof.Machine.execRd32Smpr1 s
  | .wr32Smpr1 v => Sys2Proof.Machine.execWr32Smpr1 v s
  | .rd32Smpr2 => Sys2Proof.Machine.execRd32Smpr2 s
  | .wr32Smpr2 v => Sys2Proof.Machine.execWr32Smpr2 v s
  | .rd32Sqr1 => Sys2Proof.Machine.execRd32Sqr1 s
  | .wr32Sqr1 v => Sys2Proof.Machine.execWr32Sqr1 v s
  | .rd32Sqr2 => Sys2Proof.Machine.execRd32Sqr2 s
  | .wr32Sqr2 v => Sys2Proof.Machine.execWr32Sqr2 v s
  | .rd32Sqr3 => Sys2Proof.Machine.execRd32Sqr3 s
  | .wr32Sqr3 v => Sys2Proof.Machine.execWr32Sqr3 v s
  | .rd32Sqr4 => Sys2Proof.Machine.execRd32Sqr4 s
  | .wr32Sqr4 v => Sys2Proof.Machine.execWr32Sqr4 v s
  | .rd32Dr => Sys2Proof.Machine.execRd32Dr s
  | .wr32Dr v => Sys2Proof.Machine.execWr32Dr v s
  | .rd16Dr => Sys2Proof.Machine.execRd16Dr s
  | .rd8Dr => Sys2Proof.Machine.execRd8Dr s
  | .rd16Narrow off => Sys2Proof.Machine.execRd16Narrow off s
  | .rd8Narrow off => Sys2Proof.Machine.execRd8Narrow off s
  | .wr16Narrow off v => Sys2Proof.Machine.execWr16Narrow off v s
  | .wr8Narrow off v => Sys2Proof.Machine.execWr8Narrow off v s
  | .rd32Inert10 => Sys2Proof.Machine.execRd32Inert10 s
  | .wr32Inert10 v => Sys2Proof.Machine.execWr32Inert10 v s
  | .rd32Inert1C => Sys2Proof.Machine.execRd32Inert1C s
  | .wr32Inert1C v => Sys2Proof.Machine.execWr32Inert1C v s
  | .rd32Inert20 => Sys2Proof.Machine.execRd32Inert20 s
  | .wr32Inert20 v => Sys2Proof.Machine.execWr32Inert20 v s
  | .rd32Inert24 => Sys2Proof.Machine.execRd32Inert24 s
  | .wr32Inert24 v => Sys2Proof.Machine.execWr32Inert24 v s
  | .rd32Inert4C => Sys2Proof.Machine.execRd32Inert4C s
  | .wr32Inert4C v => Sys2Proof.Machine.execWr32Inert4C v s
  | .rd32Inert60 => Sys2Proof.Machine.execRd32Inert60 s
  | .wr32Inert60 v => Sys2Proof.Machine.execWr32Inert60 v s
  | .rd32Inert64 => Sys2Proof.Machine.execRd32Inert64 s
  | .wr32Inert64 v => Sys2Proof.Machine.execWr32Inert64 v s
  | .rd32Inert68 => Sys2Proof.Machine.execRd32Inert68 s
  | .wr32Inert68 v => Sys2Proof.Machine.execWr32Inert68 v s
  | .rd32Inert6C => Sys2Proof.Machine.execRd32Inert6C s
  | .wr32Inert6C v => Sys2Proof.Machine.execWr32Inert6C v s
  | .rd32Inert80 => Sys2Proof.Machine.execRd32Inert80 s
  | .wr32Inert80 v => Sys2Proof.Machine.execWr32Inert80 v s
  | .rd32Inert84 => Sys2Proof.Machine.execRd32Inert84 s
  | .wr32Inert84 v => Sys2Proof.Machine.execWr32Inert84 v s
  | .rd32Inert88 => Sys2Proof.Machine.execRd32Inert88 s
  | .wr32Inert88 v => Sys2Proof.Machine.execWr32Inert88 v s
  | .rd32Inert8C => Sys2Proof.Machine.execRd32Inert8C s
  | .wr32Inert8C v => Sys2Proof.Machine.execWr32Inert8C v s
  | .rd32InertA0 => Sys2Proof.Machine.execRd32InertA0 s
  | .wr32InertA0 v => Sys2Proof.Machine.execWr32InertA0 v s
  | .rd32InertA4 => Sys2Proof.Machine.execRd32InertA4 s
  | .wr32InertA4 v => Sys2Proof.Machine.execWr32InertA4 v s
  | .rd32InertB0 => Sys2Proof.Machine.execRd32InertB0 s
  | .wr32InertB0 v => Sys2Proof.Machine.execWr32InertB0 v s
  | .rd32InertB4 => Sys2Proof.Machine.execRd32InertB4 s
  | .wr32InertB4 v => Sys2Proof.Machine.execWr32InertB4 v s
  | .rd32InertB8 => Sys2Proof.Machine.execRd32InertB8 s
  | .wr32InertB8 v => Sys2Proof.Machine.execWr32InertB8 v s
  | .rd32InertBC => Sys2Proof.Machine.execRd32InertBC s
  | .wr32InertBC v => Sys2Proof.Machine.execWr32InertBC v s
  | .rd32InertC0 => Sys2Proof.Machine.execRd32InertC0 s
  | .wr32InertC0 v => Sys2Proof.Machine.execWr32InertC0 v s
  | .rd32InertC4 => Sys2Proof.Machine.execRd32InertC4 s
  | .wr32InertC4 v => Sys2Proof.Machine.execWr32InertC4 v s
  | .rd32InertC8 => Sys2Proof.Machine.execRd32InertC8 s
  | .wr32InertC8 v => Sys2Proof.Machine.execWr32InertC8 v s
  | .rd32Unmapped off => Sys2Proof.Machine.execRd32Unmapped off s
  | .wr32Unmapped off v => Sys2Proof.Machine.execWr32Unmapped off v s
  | .busSizeCode3 write off => Sys2Proof.Machine.execBusSizeCode3 write off s
  | .edge line level => Sys2Proof.Machine.execEdge line level s
  | .expire => Sys2Proof.Machine.execExpire s
  | .feedv ch value rep => Sys2Proof.Machine.execFeedv ch value rep s
  | .feeds ch values rep => Sys2Proof.Machine.execFeeds ch values rep s
  | .reset => Sys2Proof.Machine.execReset s
  | .otherDescriptor desc => Sys2Proof.Machine.execOtherDescriptor desc s

end Sys2Proof.Machine
end

