-- ==== Sys2Proof/Machine/Step.lean ====
section
/-! DEFINITION. One step: the next event the host delivers, decoded and processed (R9, R10, R79). -/

namespace Sys2Proof.Machine

/-- One step of the block. With no event to process the block, which is passive (R9), stays as it is (log 2). A
delivery past an armed deadline is refused (R240; log 5). -/
def step (s : State) : Host.Outcome State Fault Refusal :=
  match fetchEvent s with
  | none => .next s
  | some (e, s') => if passesDeadline s s' then .refused .deadlinePassed else exec (decode e) s'

/-- `s` with a bare opcode-table word as the next event the host delivers (log 1, log 3). -/
def State.withFetchWord (s : State) (nbits w : Nat) : State := deliverFirst (bareEvent nbits w) s

end Sys2Proof.Machine
end

