-- ==== Sys2Proof/Safety.lean ====
section
/-! DEFINITION. What counts as a well-formed state and a safe run, in the terms the claims use (R32, R279,
R303), and the shapes of next states the claims name. -/

namespace Sys2Proof.Machine

/-- A fed channel can always yield a sample (R31, R32 item 8). -/
def Channel.wf (c : Channel) : Bool :=
  !c.fed || (decide (c.pos < c.data.length) && match c.passesLeft with
    | .forever => true
    | .finite n => decide (1 ≤ n))

/-- The invariants of R32 that one state shows (items 1 to 8), with R20's and R45's statement of which register
bits can be set, R201(d)'s that only scan mode arms the timer, and R240's that an armed deadline is not past. -/
structure State.Inv (s : State) : Prop where
  /-- R7, R21, R45, R46. -/
  params_legal : s.params.Legal
  /-- R32 item 1. -/
  length_of_enabled : s.enabled = true → 1 ≤ s.seqLen.val
  /-- R32 item 2. -/
  cursor_lt : 1 ≤ s.seqLen.val → s.cursor.val < s.seqLen.val
  /-- R32 item 3. -/
  of_disabled : s.enabled = false → s.cursor = 0 ∧ s.currentChannel = none ∧ s.timer = none ∧
    s.scanActive = false ∧ s.lenDirty = false
  /-- R32 item 4. -/
  channel_of_enabled : s.enabled = true → s.currentChannel.isSome = true
  /-- R32 item 4. -/
  channel_lt : ∀ c ∈ s.currentChannel, c.val < s.params.nCh.val
  /-- R32 item 5. -/
  of_timer : s.timer.isSome = true → s.enabled = true ∧ s.exten = 0
  /-- R201(d). -/
  scan_of_timer : s.timer.isSome = true → s.scanActive = true
  /-- R240. -/
  now_le_deadline : ∀ deadline ∈ s.timer, s.now ≤ deadline
  /-- R32 item 6. -/
  cursor_of_lenDirty : s.lenDirty = true → s.cursor ≠ 0
  /-- R32 item 7. -/
  dmaReq_low : s.dmaReq = false
  /-- R32 item 8. -/
  chan_wf : ∀ c : Fin Config.maxCh, (s.chan[c]).wf = true
  /-- R31: the block has `N_CH` channels; the entries above stand for none. -/
  chan_unused : ∀ c : Fin Config.maxCh, s.params.nCh.val ≤ c.val → s.chan[c] = Channel.unfed
  /-- R20, R37. -/
  ier_stored : s.ier &&& s.params.ierStored = s.ier
  /-- R20, R38. -/
  cr_stored : s.crStore &&& s.params.crStorage = s.crStore
  /-- R20, R39. -/
  cfgr_stored : s.cfgrStore &&& s.params.cfgrStorage = s.cfgrStore
  /-- R20, R40. -/
  smpr1_stored : s.smpr1 &&& s.params.smpr1Storage = s.smpr1
  /-- R20, R40. -/
  smpr2_stored : s.smpr2 &&& s.params.smpr2Storage = s.smpr2
  /-- R45. -/
  isr_stored : s.isrStore &&& s.params.isrStorage = s.isrStore
  /-- R45. -/
  sqr1_stored : s.sqr1Store &&& s.params.sqr1Storage = s.sqr1Store
  /-- R45. -/
  sqr2_stored : s.sqr2Store &&& s.params.sqr2Storage = s.sqr2Store
  /-- R45. -/
  sqr3_stored : s.sqr3Store &&& s.params.sqr3Storage = s.sqr3Store
  /-- R45. -/
  sqr4_stored : s.sqr4Store &&& s.params.sqr4Storage = s.sqr4Store

/-- Every slot the cursor can reach under the length in force or the written length names a channel of the
block (R279, R303(b)): the condition under which `Select` does not fault. -/
def State.SlotsNamed (s : State) : Prop :=
  ∀ i : Fin 16, i.val < s.seqLen.val ∨ i.val ≤ s.l.toNat → s.sq[i].toNat < s.params.nCh.val

/-- A run does not fault (R279: a claim about the block is a claim about runs that do not fault). -/
def Safe (r : Result) : Prop := ∀ f, r ≠ .fault f

/-- The state an accepted event starts from: the same state, no outputs yet (R11). -/
def State.begun (s : State) : State := { s with out := Outputs.empty }

/-- The state after a read that only answers `v`. -/
def State.answered (s : State) (v : ReadValue) : State :=
  { s with out := { Outputs.empty with readValue := some v } }

/-- The state after an event that only logs `ds`. -/
def State.logged (s : State) (ds : List Diag) : State :=
  { s with out := { Outputs.empty with diags := ds } }

/-- `n` steps, one after the other. -/
def stepTimes (n : Nat) (s : State) : Result :=
  match n with
  | 0 => .next s
  | n + 1 => andThen (step s) (stepTimes n)

/-- The length in force once a pending one is applied (R196). -/
def State.nextLen (s : State) : Nat := if s.lenDirty then s.l.toNat + 1 else s.seqLen.val

/-- The positions a drain converts (R224, R227): from the cursor up to the last position, then, under the
length that holds after the wrap, as many more from 0 as make `seqLen` in all. -/
def drainPositions (s : State) : List Nat :=
  List.range' s.cursor.val (s.seqLen.val - s.cursor.val) ++
    (List.range s.cursor.val).map fun j => j % s.nextLen

/-- The positions whose slots a drain selects (R189, R190, R224, R227), in order: after each completion the next
position it converts, after the last one the position at which the cursor ends. -/
def drainSelections (s : State) : List (Fin 16) :=
  ((drainPositions s).tail ++ [s.cursor.val % s.nextLen]).map (Fin.ofNat 16)

/-- The channels a drain pops (R190, R224, R227): the one latched for the cursor's position, then those the
slots of the later positions name. -/
def drainChannels (first : Fin Config.maxCh) (s : State) : List (Fin Config.maxCh) :=
  first :: (drainPositions s).tail.map fun j => channelAt s.sq[Fin.ofNat 16 j].toNat

/-- Pop each channel in turn (R190): the state after, and the result the last pop latches. -/
def popEach (cs : List (Fin Config.maxCh)) (s : State) : State × Word :=
  cs.foldl (fun p c => (popState c p.1, popValue c p.1 &&& s.params.resolutionMask s.res))
    (s, s.latchedResult)

end Sys2Proof.Machine

namespace Sys2Proof

/-- The bus reads (R130) other than those of the Data register at 0x40. -/
def Instr.isPlainRead (i : Instr) : Bool :=
  match i with
  | .rd32Isr | .rd32Ier | .rd32Cr | .rd32Cfgr | .rd32Smpr1 | .rd32Smpr2 | .rd32Sqr1 | .rd32Sqr2
  | .rd32Sqr3 | .rd32Sqr4 | .rd16Narrow _ | .rd8Narrow _ | .rd32Unmapped _
  | .rd32Inert10 | .rd32Inert1C | .rd32Inert20 | .rd32Inert24 | .rd32Inert4C | .rd32Inert60
  | .rd32Inert64 | .rd32Inert68 | .rd32Inert6C | .rd32Inert80 | .rd32Inert84 | .rd32Inert88
  | .rd32Inert8C | .rd32InertA0 | .rd32InertA4 | .rd32InertB0 | .rd32InertB4 | .rd32InertB8
  | .rd32InertBC | .rd32InertC0 | .rd32InertC4 | .rd32InertC8 => true
  | _ => false

end Sys2Proof
end

