-- ==== Sys2Proof/Certificates/Slice0/Obligations.lean ====
section
/-! DEFINITION. The statements for the provers. Each docstring says what is stated and which rules of spec/ it
formalises; OBLIGATIONS.json lists them. -/

open Sys2Proof Sys2Proof.Machine

/-- For every well-formed instruction, with every operand at every value, decode of encode is the instruction.
(R100, R102, R103) -/
def Obligations.DecodeEncodeAgree : Prop :=
  ∀ i : Instr, i.wellFormed = true → decode (encode i) = i

/-- For every event whatever its 16 descriptor bits, the instruction read from it is well formed and encodes to
the same descriptor: no bit of a descriptor is lost and no row shadows another wrongly. (R100, R103) -/
def Obligations.EveryEventDecodesToItsOwnDescriptor : Prop :=
  ∀ e : Event, (decode e).wellFormed = true ∧ (encode (decode e)).desc = e.desc

/-- The words of the spec's examples decode as R102, R220, R252, R253 and R300 say. (R102, R103) -/
def Obligations.DecodesWordsOfTheSpec : Prop :=
  decode { desc := 0x0608, val := 0x5 } = .wr32Cr 0x5 ∧
  decode { desc := 0x0140 } = .rd16Dr ∧
  decode { desc := 0x0905 } = .edge 5 true ∧
  decode { desc := 0x0805 } = .edge 5 false ∧
  decode { desc := 0x1000 } = .expire ∧
  decode { desc := 0x1803, val := 0x123, rep := 1 } = .feedv 3 0x123 1 ∧
  decode { desc := 0x2007, values := some [70, 71, 72], rep := 2 } = .feeds 7 (some [70, 71, 72]) 2 ∧
  decode { desc := 0x2800 } = .reset ∧
  decode { desc := 0x0244 } = .rd32Unmapped 0x44 ∧
  decode { desc := 0x0540, val := 0x1 } = .wr16Narrow 0x40 0x1

/-- A descriptor decodes to a refused instruction exactly when its pad bits are set, its class is 6 or 7, its
class is 0 with size 3, its class is 1 with a line number of 32 or more or a set bit 9 or 10, or its class
is 2, 3, 4 or 5 with a bit set that R100 says is 0. (R100, R103, R122) -/
def Obligations.RefusedDescriptorsAreThoseOfNoAgent : Prop :=
  ∀ e : Event,
    ((∃ w off, decode e = .busSizeCode3 w off) ↔
      (e.desc.extractLsb' 11 5 = 0 ∧ e.desc.extractLsb' 8 2 = 3)) ∧
    ((∃ d, decode e = .otherDescriptor d) ↔
      (e.desc.extractLsb' 14 2 ≠ 0 ∨
        e.desc.extractLsb' 11 3 = 6 ∨ e.desc.extractLsb' 11 3 = 7 ∨
        (e.desc.extractLsb' 11 3 = 1 ∧
          (e.desc.extractLsb' 9 2 ≠ 0 ∨ Config.maxTrig ≤ (e.desc.extractLsb' 0 8).toNat)) ∨
        (e.desc.extractLsb' 11 3 = 2 ∧ e.desc.extractLsb' 0 11 ≠ 0) ∨
        (e.desc.extractLsb' 11 3 = 3 ∧ e.desc.extractLsb' 8 3 ≠ 0) ∨
        (e.desc.extractLsb' 11 3 = 4 ∧ e.desc.extractLsb' 8 3 ≠ 0) ∨
        (e.desc.extractLsb' 11 3 = 5 ∧ e.desc.extractLsb' 0 11 ≠ 0)))

/-- If the first delivery's event decodes to i and the delivery does not take the virtual clock past an armed
deadline, step is exec of i in the state without that delivery and with the clock moved on by what it
carries; with an empty inbox the step leaves the state as it is. R9 and R10 say that one event is one step;
the inbox, its delivery times and the idle step are the model's choice (log 1, log 2). (R10, R79, R9) -/
def Obligations.StepRunsDeliveredEvent : Prop :=
  (∀ (s : State) (d : Delivery) (rest : List Delivery) (i : Instr),
    s.inbox = d :: rest → decode d.event = i → i.wellFormed = true →
    (∀ deadline, s.timer = some deadline → s.now ≤ deadline → s.now + d.elapsed ≤ deadline) →
      step s = exec i { s with inbox := rest, now := s.now + d.elapsed }) ∧
  (∀ s : State, s.inbox = [] → step s = .next s)

/-- No step that answers a next state lowers the virtual time, and it moves on only by what the delivery
carries; EXPIRE answers a next state only where the timer is armed for the present time; a delivery that
would take the clock past an armed deadline is refused. That a late delivery is refused by name is the
model's reading of R240 (log 5); unbounded natural time is the model's choice (log 17). (R101, R238, R240) -/
def Obligations.TimedModel : Prop :=
  (∀ s t : State, step s = .next t →
    t.now = s.now + (match s.inbox with | [] => 0 | d :: _ => d.elapsed)) ∧
  (∀ s t : State, exec .expire s = .next t → s.timer = some s.now) ∧
  (∀ (s : State) (d : Delivery) (rest : List Delivery) (deadline : VTime),
    s.inbox = d :: rest → s.timer = some deadline → s.now ≤ deadline →
    deadline < s.now + d.elapsed → step s = .refused .deadlinePassed)

/-- The record of State.reset holds the bound value of every parameter of R7, with T_CONV and BASE open and
UNFED a draw, and it is legal. (R45, R46, R7) -/
def Obligations.BoundParameters : Prop :=
  State.reset.params.nCh.val = 20 ∧ State.reset.params.nTrig.val = 32 ∧
  State.reset.params.tConv = none ∧ State.reset.params.base = none ∧
  State.reset.params.seqLenReset.val = 0 ∧ State.reset.params.isrW1cMask = 0x7 ∧
  State.reset.params.eosmpOnCompletion = false ∧
  (∀ d : BitVec 2, State.reset.params.dmaEnables d = true ↔ d = 1 ∨ d = 3) ∧
  (∀ r : BitVec 3, State.reset.params.resolutionMask r = 0xFFFFFFFF) ∧
  State.reset.params.unfed = none ∧ State.reset.params.edgeRequiresStart = false ∧
  State.reset.params.isrStorage = 0 ∧
  State.reset.params.ierStorage = 0x3 ∧ State.reset.params.crStorage = 0x300 ∧
  State.reset.params.cfgrStorage = 0 ∧ State.reset.params.smpr1Storage = 0x3FFFFFFF ∧
  State.reset.params.smpr2Storage = 0x3FFFFFFF ∧ State.reset.params.sqr1Storage = 0 ∧
  State.reset.params.sqr2Storage = 0 ∧ State.reset.params.sqr3Storage = 0 ∧
  State.reset.params.sqr4Storage = 0 ∧ State.reset.params.drStorage = 0 ∧
  State.reset.params.inertOffsets = [0x10, 0x1C, 0x20, 0x24, 0x4C, 0x60, 0x64, 0x68, 0x6C, 0x80,
    0x84, 0x88, 0x8C, 0xA0, 0xA4, 0xB0, 0xB4, 0xB8, 0xBC, 0xC0, 0xC4, 0xC8] ∧
  State.reset.params.Legal

/-- If step answers next t, the record of parameters in t is that of the state before, RESET included. (R22,
R301) -/
def Obligations.ParametersNeverChange : Prop :=
  ∀ s t : State, step s = .next t → t.params = s.params

/-- In a state whose faulted field holds a fault name, every instruction, the reset among them, answers a
refusal. (R289) -/
def Obligations.FaultedBlockRefusesEveryEvent : Prop :=
  ∀ (i : Instr) (s : State), s.faulted ≠ none → ∃ r, exec i s = .refused r

/-- The two rows R122 refuses answer a refusal in every state, and an unfaulted block refuses an EDGE on a line
number at or above N_TRIG. (R103, R122, R221) -/
def Obligations.RefusedDescriptorsAreRefused : Prop :=
  (∀ (s : State) (w : Bool) (off : Offset) (d : Descriptor),
    exec (.busSizeCode3 w off) s = .refused .reservedSizeCode ∧
    exec (.otherDescriptor d) s = .refused .notAnEvent) ∧
  ∀ (s : State) (line : BitVec 5) (level : Bool), s.faulted = none →
    s.params.nTrig.val ≤ line.toNat → exec (.edge line level) s = .refused .notAnEvent

/-- For every record p, State.constructed p has every register, flag and stored bit 0, the sequence length p
gives for reset, the block disabled in internal mode, no channel selected, the timer disarmed, both lines
low, every channel unfed, no fault and the parameters p; State.reset is the construction with the bound
parameters. R50 and R301 name no component for the inert bits of the Status and Sequence registers: that
they are 0 is log 18 (DEDUCED from the reset values of R36 and R41 to R44). (R301, R36, R41, R42, R43, R44,
R50) -/
def Obligations.ConstructionState : Prop :=
  (∀ p : Params,
    (State.constructed p).adrdy = false ∧ (State.constructed p).eosmp = false ∧
    (State.constructed p).eoc = false ∧ (State.constructed p).isrStore = 0 ∧
    (State.constructed p).ier = 0 ∧
    (State.constructed p).crStore = 0 ∧ (State.constructed p).dmngt = 0 ∧
    (State.constructed p).res = 0 ∧ (State.constructed p).extsel = 0 ∧
    (State.constructed p).exten = 0 ∧ (State.constructed p).cont = false ∧
    (State.constructed p).cfgrStore = 0 ∧ (State.constructed p).smpr1 = 0 ∧
    (State.constructed p).smpr2 = 0 ∧ (State.constructed p).l = 0 ∧
    (∀ i : Fin 16, (State.constructed p).sq[i] = 0) ∧ (State.constructed p).sqr1Store = 0 ∧
    (State.constructed p).sqr2Store = 0 ∧ (State.constructed p).sqr3Store = 0 ∧
    (State.constructed p).sqr4Store = 0 ∧ (State.constructed p).latchedResult = 0 ∧
    (State.constructed p).seqLen = p.seqLenReset ∧ (State.constructed p).lenDirty = false ∧
    (State.constructed p).cursor = 0 ∧ (State.constructed p).enabled = false ∧
    (State.constructed p).scanActive = false ∧ (State.constructed p).currentChannel = none ∧
    (State.constructed p).timer = none ∧ (State.constructed p).irq = false ∧
    (State.constructed p).dmaReq = false ∧
    (∀ c : Fin Config.maxCh, ((State.constructed p).chan[c]).fed = false) ∧
    (State.constructed p).faulted = none ∧ (State.constructed p).params = p) ∧
  State.reset = State.constructed Params.bound ∧ State.reset.seqLen = 0

/-- RESET (T = 0x2800) answers the next state in which every register, flag and sequencer variable has its reset
value, Disarm is commanded if the timer was armed, IRQ(0) is emitted if the line was high, each fed channel
with a finite pass count has one pass left, and everything else is as before. That data and positions of the
channels survive is the decision D25, on which R259 and R304 say no claim should depend; that now, draws and
inbox stay is the model's; both are log 14 (DEDUCED, unsafe). The inert bits of the Status and Sequence
registers are log 18 (DEDUCED from R45 and R104). (R259, R300, R50) -/
def Obligations.ResetEvent : Prop :=
  decode { desc := 0x2800 } = .reset ∧
  ∀ s : State, s.faulted = none →
    exec .reset s = .next { s with
      adrdy := false, eosmp := false, eoc := false, isrStore := 0, ier := 0, crStore := 0, dmngt := 0
      res := 0, extsel := 0, exten := 0, cont := false, cfgrStore := 0, smpr1 := 0, smpr2 := 0, l := 0
      sq := Vector.replicate 16 0, sqr1Store := 0, sqr2Store := 0, sqr3Store := 0, sqr4Store := 0
      latchedResult := 0, seqLen := s.params.seqLenReset, lenDirty := false, cursor := 0
      enabled := false, scanActive := false, currentChannel := none, timer := none, irq := false
      dmaReq := false
      chan := s.chan.map fun c =>
        if c.fed = true ∧ c.passesLeft ≠ .forever then { c with passesLeft := .finite 1 } else c
      out := { Outputs.empty with
        timer := if s.timer = none then [] else [.disarm]
        lines := if s.irq then [.irq false] else [] } }

/-- State.Inv holds of State.constructed p for every legal p, and of State.reset. The clauses of State.Inv on
the inert bits of the Status and Sequence registers rest on log 18 (DEDUCED from R45 and R104). (R32) -/
def Obligations.ConstructionHasInvariant : Prop :=
  (∀ p : Params, p.Legal → (State.constructed p).Inv) ∧ State.reset.Inv

/-- For every state with State.Inv, if step answers next s', then State.Inv holds of s': items 1 to 8 of R32,
the storage masks of R20, that only scan mode arms the timer (R201), and that no armed deadline is past
(R240). That the inert bits of the Status and Sequence registers stay under their masks is log 18 (DEDUCED
from R45 and R104). (R20, R201, R240, R32) -/
def Obligations.StepKeepsInvariant : Prop :=
  ∀ s s' : State, s.Inv → step s = .next s' → s'.Inv

/-- If exec answers next t, the faulted field was none and is none: a faulted block accepts nothing, RESET
included, and the step that raises a fault has no result state (log 8). That the faulting step answers the
fault itself and no state is the model's reading of R279 (log 8). (R279, R289) -/
def Obligations.StepKeepsUnfaulted : Prop :=
  ∀ (i : Instr) (s t : State), exec i s = .next t → s.faulted = none ∧ t.faulted = none

/-- In a state with State.Inv, if an event faults, the fault is ChannelOutOfRange(i, c) with c the value slot
i+1 held before the event, c >= N_CH, and the event is a Control write, an expiry or an edge. (R189, R271,
R279) -/
def Obligations.OnlySelectFaults : Prop :=
  ∀ (i : Instr) (s : State) (f : Fault), s.Inv → exec i s = .fault f →
    ∃ p : Fin 16, f = .channelOutOfRange p s.sq[p] ∧ s.params.nCh.val ≤ s.sq[p].toNat ∧
      ((∃ v, i = .wr32Cr v) ∨ i = .expire ∨ ∃ line level, i = .edge line level)

/-- In a state with State.Inv whose slots at positions below the length in force and up to the written length
are all below N_CH, no event of any agent faults. (R279, R303) -/
def Obligations.NamedSlotsNeverFault : Prop :=
  ∀ (i : Instr) (s : State), s.Inv → s.SlotsNamed → Safe (exec i s)

/-- In a state with State.Inv whose N_CH is 32, no event of any agent faults, whatever the slots hold. (R279) -/
def Obligations.NoFaultWithAllChannels : Prop :=
  ∀ (i : Instr) (s : State), s.Inv → s.params.nCh.val = 32 → Safe (exec i s)

/-- With legal parameters RD32 ISR answers a next state that differs only in the outputs; the value has bit 0 =
adrdy, bit 1 = eosmp, bit 2 = eoc, and every other bit is the stored one under STORAGE_MASK[ISR], 0 under
the bound mask. R133 returns the flags only: that the other bits are the stored ones is log 18 (DEDUCED from
R45 and R104). (R104, R105, R133, R45) -/
def Obligations.StatusRead : Prop :=
  decode { desc := 0x0200 } = .rd32Isr ∧
  (∀ s : State, s.params.Legal → s.faulted = none →
    ∃ w : Word, exec .rd32Isr s = .next (s.answered (.word w)) ∧
      ∀ k : Nat, w.getLsbD k =
        if k = 0 then s.adrdy else if k = 1 then s.eosmp else if k = 2 then s.eoc
        else s.isrStore.getLsbD k && s.params.isrStorage.getLsbD k) ∧
  Params.bound.isrStorage = 0

/-- With legal parameters RD32 CR answers a next state that differs only in the outputs; bit 0 = enabled, bits
1, 2 and 31 read 0, and every other bit is the stored one under STORAGE_MASK[CR] (the BOOST bits 9:8 under
the bound mask). (R107, R137) -/
def Obligations.ControlRead : Prop :=
  decode { desc := 0x0208 } = .rd32Cr ∧
  ∀ s : State, s.params.Legal → s.faulted = none →
    ∃ w : Word, exec .rd32Cr s = .next (s.answered (.word w)) ∧
      ∀ k : Nat, w.getLsbD k =
        if k = 0 then s.enabled else if k = 1 ∨ k = 2 ∨ k = 31 then false
        else s.crStore.getLsbD k && s.params.crStorage.getLsbD k

/-- With legal parameters RD32 CFGR answers a next state that differs only in the outputs; each field stands at
the bits of R108, and bits 12 and 31:14 are the stored ones under STORAGE_MASK[CFGR] (0 under the bound
mask). (R108, R139) -/
def Obligations.ConfigurationRead : Prop :=
  decode { desc := 0x020C } = .rd32Cfgr ∧
  ∀ s : State, s.params.Legal → s.faulted = none →
    ∃ w : Word, exec .rd32Cfgr s = .next (s.answered (.word w)) ∧
      w.extractLsb' 0 2 = s.dmngt ∧ w.extractLsb' 2 3 = s.res ∧ w.extractLsb' 5 5 = s.extsel ∧
      w.extractLsb' 10 2 = s.exten ∧ w.getLsbD 13 = s.cont ∧
      ∀ k : Nat, k = 12 ∨ 14 ≤ k →
        w.getLsbD k = (s.cfgrStore.getLsbD k && s.params.cfgrStorage.getLsbD k)

/-- Each of the three reads answers a next state that differs only in the outputs, with the stored word. (R135,
R141, R143) -/
def Obligations.StorageReads : Prop :=
  decode { desc := 0x0204 } = .rd32Ier ∧ decode { desc := 0x0214 } = .rd32Smpr1 ∧
  decode { desc := 0x0218 } = .rd32Smpr2 ∧
  ∀ s : State, s.faulted = none →
    exec .rd32Ier s = .next (s.answered (.word s.ier)) ∧
    exec .rd32Smpr1 s = .next (s.answered (.word s.smpr1)) ∧
    exec .rd32Smpr2 s = .next (s.answered (.word s.smpr2))

/-- With legal parameters each of the four reads answers a next state that differs only in the outputs; the
fields stand at the bits of R111 to R113 and every other bit is the stored one under the register's
STORAGE_MASK, 0 under the bound masks. SQR1 returns the written length field, whatever the length in force.
R145, R156, R158 and R160 return the fields only: that the other bits are the stored ones is log 18 (DEDUCED
from R45 and R104). (R104, R145, R156, R158, R160, R45) -/
def Obligations.SequenceReads : Prop :=
  decode { desc := 0x0230 } = .rd32Sqr1 ∧ decode { desc := 0x0234 } = .rd32Sqr2 ∧
  decode { desc := 0x0238 } = .rd32Sqr3 ∧ decode { desc := 0x023C } = .rd32Sqr4 ∧
  Params.bound.sqr1Storage = 0 ∧ Params.bound.sqr2Storage = 0 ∧ Params.bound.sqr3Storage = 0 ∧
  Params.bound.sqr4Storage = 0 ∧
  ∀ s : State, s.params.Legal → s.faulted = none →
    (∃ w : Word, exec .rd32Sqr1 s = .next (s.answered (.word w)) ∧
      w.extractLsb' 0 4 = s.l ∧ w.extractLsb' 6 5 = s.sq[0] ∧ w.extractLsb' 12 5 = s.sq[1] ∧ w.extractLsb' 18 5 = s.sq[2] ∧
      w.extractLsb' 24 5 = s.sq[3] ∧
      ∀ k : Nat, k = 4 ∨ k = 5 ∨ k = 11 ∨ k = 17 ∨ k = 23 ∨ 29 ≤ k →
        w.getLsbD k = (s.sqr1Store.getLsbD k && s.params.sqr1Storage.getLsbD k)) ∧
    (∃ w : Word, exec .rd32Sqr2 s = .next (s.answered (.word w)) ∧
      w.extractLsb' 0 5 = s.sq[4] ∧ w.extractLsb' 6 5 = s.sq[5] ∧ w.extractLsb' 12 5 = s.sq[6] ∧
      w.extractLsb' 18 5 = s.sq[7] ∧ w.extractLsb' 24 5 = s.sq[8] ∧
      ∀ k : Nat, k = 5 ∨ k = 11 ∨ k = 17 ∨ k = 23 ∨ 29 ≤ k →
        w.getLsbD k = (s.sqr2Store.getLsbD k && s.params.sqr2Storage.getLsbD k)) ∧
    (∃ w : Word, exec .rd32Sqr3 s = .next (s.answered (.word w)) ∧
      w.extractLsb' 0 5 = s.sq[9] ∧ w.extractLsb' 6 5 = s.sq[10] ∧ w.extractLsb' 12 5 = s.sq[11] ∧
      w.extractLsb' 18 5 = s.sq[12] ∧ w.extractLsb' 24 5 = s.sq[13] ∧
      ∀ k : Nat, k = 5 ∨ k = 11 ∨ k = 17 ∨ k = 23 ∨ 29 ≤ k →
        w.getLsbD k = (s.sqr3Store.getLsbD k && s.params.sqr3Storage.getLsbD k)) ∧
    (∃ w : Word, exec .rd32Sqr4 s = .next (s.answered (.word w)) ∧
      w.extractLsb' 0 5 = s.sq[14] ∧ w.extractLsb' 6 5 = s.sq[15] ∧
      ∀ k : Nat, k = 5 ∨ 11 ≤ k →
        w.getLsbD k = (s.sqr4Store.getLsbD k && s.params.sqr4Storage.getLsbD k))

/-- With legal parameters, for IER, CFGR, SMPR1, SMPR2 and SQR1 to SQR4, writing v and then reading the register
completes and returns v with exactly the bits outside the register's fields and STORAGE_MASK cleared. The
inert bits of SQR1 to SQR4 are log 18 (DEDUCED from R45 and R104). (R104, R155, R45, V2) -/
def Obligations.ReadBackAfterWrite : Prop :=
  ∀ (s : State) (v : Word), s.params.Legal → s.faulted = none →
    ∀ p ∈ ([(.wr32Ier v, .rd32Ier, s.params.ierStorage ||| 0x4),
        (.wr32Cfgr v, .rd32Cfgr, s.params.cfgrStorage ||| 0x00002FFF),
        (.wr32Smpr1 v, .rd32Smpr1, s.params.smpr1Storage),
        (.wr32Smpr2 v, .rd32Smpr2, s.params.smpr2Storage),
        (.wr32Sqr1 v, .rd32Sqr1, s.params.sqr1Storage ||| 0x1F7DF7CF),
        (.wr32Sqr2 v, .rd32Sqr2, s.params.sqr2Storage ||| 0x1F7DF7DF),
        (.wr32Sqr3 v, .rd32Sqr3, s.params.sqr3Storage ||| 0x1F7DF7DF),
        (.wr32Sqr4 v, .rd32Sqr4, s.params.sqr4Storage ||| 0x000007DF)] :
        List (Instr × Instr × Word)),
      ∃ t, exec p.1 s = .next t ∧ exec p.2.1 t = .next (t.answered (.word (v &&& p.2.2)))

/-- Every bus read other than the three Data-register reads at 0x40, at any offset and width, leaves the whole
state as it was except for the outputs, and completes with a value. (R77) -/
def Obligations.PlainReadsChangeNothing : Prop :=
  ∀ (i : Instr) (s : State), i.isPlainRead = true → s.faulted = none →
    ∃ t v, exec i s = .next t ∧ t.out.readValue = some v ∧ t = { s with out := t.out }

/-- The three reads answer the latched result, its low halfword or its low byte, clear eoc, lower the interrupt
line with IRQ(0) exactly if it was high, and change nothing else. (R147, R148, R149) -/
def Obligations.DataRegisterReadsConsume : Prop :=
  decode { desc := 0x0240 } = .rd32Dr ∧ decode { desc := 0x0140 } = .rd16Dr ∧
  decode { desc := 0x0040 } = .rd8Dr ∧
  ∀ s : State, s.faulted = none →
    ∀ p ∈ ([(.rd32Dr, .word s.latchedResult), (.rd16Dr, .half (s.latchedResult.extractLsb' 0 16)),
        (.rd8Dr, .byte (s.latchedResult.extractLsb' 0 8))] : List (Instr × ReadValue)),
      exec p.1 s = .next { s with
        eoc := false, irq := false
        out := { Outputs.empty with
          readValue := some p.2
          lines := if s.irq then [.irq false] else [] } }

/-- WR32 ISR, v clears adrdy, eosmp and eoc where bit 0, 1 or 2 of v is 1 and in ISR_W1C_MASK (the bound mask
has all three), stores the bits of STORAGE_MASK[ISR] (none as bound) and changes nothing else; the interrupt
line does not move. R134 ignores bits 31:3: that those in STORAGE_MASK[ISR] are stored is log 18 (DEDUCED
from R45 and R104). (R104, R134, R45) -/
def Obligations.StatusWrite : Prop :=
  (∀ v : Word, decode { desc := 0x0600, val := v } = .wr32Isr v) ∧
  (∀ (s : State) (v : Word), s.faulted = none →
    exec (.wr32Isr v) s = .next { s with
      adrdy := s.adrdy && !(v.getLsbD 0 && s.params.isrW1cMask.getLsbD 0)
      eosmp := s.eosmp && !(v.getLsbD 1 && s.params.isrW1cMask.getLsbD 1)
      eoc := s.eoc && !(v.getLsbD 2 && s.params.isrW1cMask.getLsbD 2)
      isrStore := v &&& s.params.isrStorage, out := Outputs.empty }) ∧
  Params.bound.isrW1cMask = 0x7 ∧ Params.bound.isrStorage = 0

/-- WR32 IER stores v & (STORAGE_MASK[IER] | 4), WR32 SMPR1 and SMPR2 store v under their masks (0x3FFF_FFFF as
bound); nothing else changes, in particular not the interrupt line. (R136, R142, R144) -/
def Obligations.StorageWrites : Prop :=
  (∀ v : Word, decode { desc := 0x0604, val := v } = .wr32Ier v ∧
    decode { desc := 0x0614, val := v } = .wr32Smpr1 v ∧
    decode { desc := 0x0618, val := v } = .wr32Smpr2 v) ∧
  (∀ (s : State) (v : Word), s.faulted = none →
    exec (.wr32Ier v) s =
      .next { s with ier := v &&& (s.params.ierStorage ||| 0x4), out := Outputs.empty } ∧
    exec (.wr32Smpr1 v) s = .next { s with smpr1 := v &&& s.params.smpr1Storage, out := Outputs.empty } ∧
    exec (.wr32Smpr2 v) s = .next { s with smpr2 := v &&& s.params.smpr2Storage, out := Outputs.empty }) ∧
  Params.bound.ierStorage = 0x3 ∧ Params.bound.smpr1Storage = 0x3FFFFFFF ∧
  Params.bound.smpr2Storage = 0x3FFFFFFF

/-- WR32 DR is silent; WR16 and WR8 of offset 0x40 log NarrowAccess; no state changes. (R150) -/
def Obligations.DataRegisterWritesIgnored : Prop :=
  (∀ v : Word, decode { desc := 0x0640, val := v } = .wr32Dr v) ∧
  ∀ (s : State) (v : Word) (h : Half) (b : Byte), s.faulted = none →
    exec (.wr32Dr v) s = .next s.begun ∧
    exec (.wr16Narrow 0x40 h) s = .next (s.logged [.narrowAccess 0x40 2 .write]) ∧
    exec (.wr8Narrow 0x40 b) s = .next (s.logged [.narrowAccess 0x40 1 .write])

/-- For each of the 22 offsets the opcode table gives rows, the word read and the word write at it decode to
that offset's own instruction, and where the instance declares the offset inert, as the bound parameters do,
each completes: the read returns 0, the write does nothing, no state changes and no diagnostic is raised.
The same holds of the two general rows at any offset an instance declares inert. (R151) -/
def Obligations.DeclaredInertAccesses : Prop :=
  (∀ v : Word, ∀ p ∈ ([(0x10, .rd32Inert10, .wr32Inert10 v),
      (0x1C, .rd32Inert1C, .wr32Inert1C v),
      (0x20, .rd32Inert20, .wr32Inert20 v),
      (0x24, .rd32Inert24, .wr32Inert24 v),
      (0x4C, .rd32Inert4C, .wr32Inert4C v),
      (0x60, .rd32Inert60, .wr32Inert60 v),
      (0x64, .rd32Inert64, .wr32Inert64 v),
      (0x68, .rd32Inert68, .wr32Inert68 v),
      (0x6C, .rd32Inert6C, .wr32Inert6C v),
      (0x80, .rd32Inert80, .wr32Inert80 v),
      (0x84, .rd32Inert84, .wr32Inert84 v),
      (0x88, .rd32Inert88, .wr32Inert88 v),
      (0x8C, .rd32Inert8C, .wr32Inert8C v),
      (0xA0, .rd32InertA0, .wr32InertA0 v),
      (0xA4, .rd32InertA4, .wr32InertA4 v),
      (0xB0, .rd32InertB0, .wr32InertB0 v),
      (0xB4, .rd32InertB4, .wr32InertB4 v),
      (0xB8, .rd32InertB8, .wr32InertB8 v),
      (0xBC, .rd32InertBC, .wr32InertBC v),
      (0xC0, .rd32InertC0, .wr32InertC0 v),
      (0xC4, .rd32InertC4, .wr32InertC4 v),
      (0xC8, .rd32InertC8, .wr32InertC8 v)] :
      List (Offset × Instr × Instr)),
    decode { desc := 0x0200 ||| p.1.setWidth 16 } = p.2.1 ∧
    decode { desc := 0x0600 ||| p.1.setWidth 16, val := v } = p.2.2 ∧
    p.1 ∈ Params.bound.inertOffsets ∧
    ∀ s : State, s.faulted = none → p.1 ∈ s.params.inertOffsets →
      exec p.2.1 s = .next (s.answered (.word 0)) ∧ exec p.2.2 s = .next s.begun) ∧
  (∀ (s : State) (off : Offset) (v : Word), s.faulted = none → off ∈ s.params.inertOffsets →
    exec (.rd32Unmapped off) s = .next (s.answered (.word 0)) ∧
    exec (.wr32Unmapped off v) s = .next s.begun)

/-- For every offset that is none of the eleven registers' and that the instance does not declare inert, the
word read returns 0 with UnmappedRead and the word write is dropped with UnmappedWrite; no state changes.
Every offset that is not a multiple of 4 is such an offset of every instance with legal parameters, and the
bound parameters are legal. (R152) -/
def Obligations.UnmappedWordAccesses : Prop :=
  (∀ (p : Params) (off : Offset), p.Legal → off.toNat % 4 ≠ 0 →
    off ∉ Config.registerOffsets ∧ off ∉ p.inertOffsets) ∧
  Params.bound.Legal ∧
  (∀ (off : Offset) (v : Word), off ∉ Config.registerOffsets → off ∉ Params.bound.inertOffsets →
    decode { desc := 0x0200 ||| off.setWidth 16 } = .rd32Unmapped off ∧
    decode { desc := 0x0600 ||| off.setWidth 16, val := v } = .wr32Unmapped off v) ∧
  ∀ (s : State) (off : Offset) (v : Word), s.faulted = none → off ∉ Config.registerOffsets →
    off ∉ s.params.inertOffsets →
    exec (decode { desc := 0x0200 ||| off.setWidth 16 }) s = .next { s with
      out := { Outputs.empty with readValue := some (.word 0), diags := [.unmappedRead off] } } ∧
    exec (decode { desc := 0x0600 ||| off.setWidth 16, val := v }) s =
      .next (s.logged [.unmappedWrite off])

/-- Every halfword or byte read at an offset other than 0x40 returns 0, every halfword or byte write at any
offset is dropped, each with NarrowAccess naming offset, width and direction; no state changes. (R153, R154) -/
def Obligations.NarrowAccessesHaveNoEffect : Prop :=
  ∀ (off : Offset) (v : Word),
    (off ≠ 0x40 → decode { desc := 0x0100 ||| off.setWidth 16 } = .rd16Narrow off ∧
      decode { desc := 0x0000 ||| off.setWidth 16 } = .rd8Narrow off) ∧
    decode { desc := 0x0500 ||| off.setWidth 16, val := v } = .wr16Narrow off (v.extractLsb' 0 16) ∧
    decode { desc := 0x0400 ||| off.setWidth 16, val := v } = .wr8Narrow off (v.extractLsb' 0 8) ∧
    ∀ s : State, s.faulted = none →
      exec (.rd16Narrow off) s = .next { s with
        out := { Outputs.empty with
          readValue := some (.half 0), diags := [.narrowAccess off 2 .read] } } ∧
      exec (.rd8Narrow off) s = .next { s with
        out := { Outputs.empty with
          readValue := some (.byte 0), diags := [.narrowAccess off 1 .read] } } ∧
      (∀ h, exec (.wr16Narrow off h) s = .next (s.logged [.narrowAccess off 2 .write])) ∧
      (∀ b, exec (.wr8Narrow off b) s = .next (s.logged [.narrowAccess off 1 .write]))

/-- WR32 SQR1, v stores L, SQ1 to SQ4 and the bits of STORAGE_MASK[SQR1] (none as bound); if the cursor is 0 the
length in force becomes L + 1 and no length is pending, otherwise the length in force stays and the new one
is pending; the selected channel and everything else is unchanged. R146 stores the fields only: that the
bits of STORAGE_MASK[SQR1] are stored is log 18 (DEDUCED from R45 and R104). (R104, R115, R146, R197, R45) -/
def Obligations.SequenceLengthWrite : Prop :=
  (∀ v : Word, decode { desc := 0x0630, val := v } = .wr32Sqr1 v) ∧
  ∀ (s : State) (v : Word), s.faulted = none →
    ∃ t, exec (.wr32Sqr1 v) s = .next t ∧
      t.l = v.extractLsb' 0 4 ∧
      (s.cursor = 0 → t.seqLen.val = (v.extractLsb' 0 4).toNat + 1 ∧ t.lenDirty = false) ∧
      (s.cursor ≠ 0 → t.seqLen = s.seqLen ∧ t.lenDirty = true) ∧
      (∀ i : Fin 16, t.sq[i] =
        if i.val < 4 then v.extractLsb' (6 * (i.val + 1)) 5 else s.sq[i]) ∧
      t.sqr1Store = v &&& s.params.sqr1Storage ∧
      t = { s with
        l := t.l, seqLen := t.seqLen, lenDirty := t.lenDirty, sq := t.sq, sqr1Store := t.sqr1Store
        out := Outputs.empty }

/-- WR32 SQR2 stores SQ5 to SQ9, WR32 SQR3 stores SQ10 to SQ14, WR32 SQR4 stores SQ15 and SQ16, each with the
bits of its register's STORAGE_MASK (none as bound); every other slot and every other part of the state is
unchanged. R157, R159 and R161 store the slots only: that the bits of the STORAGE_MASK of SQR2, SQR3 and
SQR4 are stored is log 18 (DEDUCED from R45 and R104). (R104, R157, R159, R161, R45) -/
def Obligations.SequenceSlotWrites : Prop :=
  (∀ v : Word, decode { desc := 0x0634, val := v } = .wr32Sqr2 v ∧
    decode { desc := 0x0638, val := v } = .wr32Sqr3 v ∧
    decode { desc := 0x063C, val := v } = .wr32Sqr4 v) ∧
  ∀ (s : State) (v : Word), s.faulted = none →
    (∃ sq : Vector (BitVec 5) 16,
      exec (.wr32Sqr2 v) s = .next { s with
        sq := sq, sqr2Store := v &&& s.params.sqr2Storage, out := Outputs.empty } ∧
      ∀ i : Fin 16, sq[i] =
        if 4 ≤ i.val ∧ i.val < 9 then v.extractLsb' (6 * (i.val - 4)) 5 else s.sq[i]) ∧
    (∃ sq : Vector (BitVec 5) 16,
      exec (.wr32Sqr3 v) s = .next { s with
        sq := sq, sqr3Store := v &&& s.params.sqr3Storage, out := Outputs.empty } ∧
      ∀ i : Fin 16, sq[i] =
        if 9 ≤ i.val ∧ i.val < 14 then v.extractLsb' (6 * (i.val - 9)) 5 else s.sq[i]) ∧
    (∃ sq : Vector (BitVec 5) 16,
      exec (.wr32Sqr4 v) s = .next { s with
        sq := sq, sqr4Store := v &&& s.params.sqr4Storage, out := Outputs.empty } ∧
      ∀ i : Fin 16, sq[i] =
        if 14 ≤ i.val ∧ i.val < 16 then v.extractLsb' (6 * (i.val - 14)) 5 else s.sq[i])

/-- WR32 CFGR, v stores DMNGT, RES, EXTSEL, EXTEN, CONT and the inert bits. A non-zero new EXTEN disarms the
timer; a change of EXTEN from non-zero to 0 while enabled and in scan mode arms a disarmed timer for now +
T_CONV; otherwise the timer is unchanged. Nothing else changes: no flag, line, cursor, channel or sample.
(R140, R187, R188) -/
def Obligations.ConfigurationWrite : Prop :=
  (∀ v : Word, decode { desc := 0x060C, val := v } = .wr32Cfgr v) ∧
  ∀ (s : State) (v : Word), s.faulted = none →
    ∃ t, exec (.wr32Cfgr v) s = .next t ∧
      t.dmngt = v.extractLsb' 0 2 ∧ t.res = v.extractLsb' 2 3 ∧ t.extsel = v.extractLsb' 5 5 ∧
      t.exten = v.extractLsb' 10 2 ∧ t.cont = v.getLsbD 13 ∧
      t.cfgrStore = v &&& s.params.cfgrStorage ∧
      (t.exten ≠ 0 → t.timer = none ∧
        t.out = { Outputs.empty with timer := if s.timer = none then [] else [.disarm] }) ∧
      (t.exten = 0 →
        if s.exten ≠ 0 ∧ s.enabled = true ∧ s.scanActive = true ∧ s.timer = none then
          t.timer = some (s.now + s.params.convTime) ∧
          t.out = { Outputs.empty with timer := [.arm s.params.convTime] }
        else t.timer = s.timer ∧ t.out = Outputs.empty) ∧
      t = { s with
        dmngt := t.dmngt, res := t.res, extsel := t.extsel, exten := t.exten, cont := t.cont
        cfgrStore := t.cfgrStore, timer := t.timer, out := t.out }

/-- WR32 CR, v with bits 0, 1 and 2 clear stores the bits of STORAGE_MASK[CR] (BOOST, bits 9:8, as bound) and
changes nothing else, whatever bit 31 is. (R138, R186) -/
def Obligations.ControlWriteWithoutCommands : Prop :=
  (∀ v : Word, decode { desc := 0x0608, val := v } = .wr32Cr v) ∧
  ∀ (s : State) (v : Word), s.faulted = none →
    v.getLsbD 0 = false → v.getLsbD 1 = false → v.getLsbD 2 = false →
    exec (.wr32Cr v) s = .next { s with crStore := v &&& s.params.crStorage, out := Outputs.empty }

/-- With legal parameters, setting bit 31 of a Control write changes nothing about what the write answers, in
any state and with any other bits, and after any Control write that completes bit 31 of the register reads
0. (R186) -/
def Obligations.CalibrationBitDoesNothing : Prop :=
  ∀ (s : State) (v : Word), s.params.Legal →
    exec (.wr32Cr (v ||| 0x80000000)) s = exec (.wr32Cr v) s ∧
    ∀ t, exec (.wr32Cr v) s = .next t →
      ∃ w : Word, exec .rd32Cr t = .next (t.answered (.word w)) ∧ w.getLsbD 31 = false

/-- A Control write of ADEN alone: ignored while enabled; with an empty sequence it only logs
EnableEmptySequence; otherwise it sets enabled and adrdy and latches the channel of position 0. Only inert
bits are stored besides. Any Control write with ADEN set, whatever its other bits, faults if it enables and
the slot of position 0 names no channel: the fault pre-empts the rest of the step. (R138, R183, R189, R278) -/
def Obligations.EnableWrite : Prop :=
  (∀ (s : State) (v : Word), s.faulted = none → v.getLsbD 0 = true →
    s.enabled = false → s.seqLen ≠ 0 → s.params.nCh.val ≤ s.sq[0].toNat →
    exec (.wr32Cr v) s = .fault (.channelOutOfRange 0 s.sq[0])) ∧
  ∀ (s : State) (v : Word), s.faulted = none →
    v.getLsbD 0 = true → v.getLsbD 1 = false → v.getLsbD 2 = false →
    (s.enabled = true → exec (.wr32Cr v) s =
      .next { s with crStore := v &&& s.params.crStorage, out := Outputs.empty }) ∧
    (s.enabled = false → s.seqLen = 0 → exec (.wr32Cr v) s = .next { s with
      crStore := v &&& s.params.crStorage
      out := { Outputs.empty with diags := [.enableEmptySequence] } }) ∧
    (s.enabled = false → s.seqLen ≠ 0 → s.sq[0].toNat < s.params.nCh.val →
      ∃ c : Fin Config.maxCh, c.val = s.sq[0].toNat ∧
      exec (.wr32Cr v) s = .next { s with
        enabled := true, adrdy := true, currentChannel := some c
        crStore := v &&& s.params.crStorage, out := Outputs.empty })

/-- A Control write of ADDIS alone: ignored while disabled; otherwise enabled, the timer, the cursor, the
selected channel and scan mode are cleared, a pending length takes effect, Disarm is commanded if the timer
was armed, and everything else (eoc, eosmp, adrdy, irq, the result, the fields, the channels) is unchanged.
(R184, R196, R237) -/
def Obligations.DisableWrite : Prop :=
  ∀ (s : State) (v : Word), s.faulted = none →
    v.getLsbD 0 = false → v.getLsbD 1 = true → v.getLsbD 2 = false →
    (s.enabled = false → exec (.wr32Cr v) s =
      .next { s with crStore := v &&& s.params.crStorage, out := Outputs.empty }) ∧
    (s.enabled = true → ∃ n : Fin 17,
      n.val = (if s.lenDirty then s.l.toNat + 1 else s.seqLen.val) ∧
      exec (.wr32Cr v) s = .next { s with
        enabled := false, timer := none, cursor := 0, currentChannel := none, scanActive := false
        seqLen := n, lenDirty := false, crStore := v &&& s.params.crStorage
        out := { Outputs.empty with timer := if s.timer = none then [] else [.disarm] } })

/-- A Control write of ADSTART alone: while disabled it only logs StartWhileDisabled; in an external mode it
only sets scan mode; in internal mode it also arms a disarmed timer for now + T_CONV and keeps the deadline
of an armed one. (R185, R236) -/
def Obligations.StartWrite : Prop :=
  ∀ (s : State) (v : Word), s.faulted = none →
    v.getLsbD 0 = false → v.getLsbD 1 = false → v.getLsbD 2 = true →
    (s.enabled = false → exec (.wr32Cr v) s = .next { s with
      crStore := v &&& s.params.crStorage
      out := { Outputs.empty with diags := [.startWhileDisabled] } }) ∧
    (s.enabled = true → s.exten ≠ 0 ∨ s.timer.isSome = true → exec (.wr32Cr v) s = .next { s with
      scanActive := true, crStore := v &&& s.params.crStorage, out := Outputs.empty }) ∧
    (s.enabled = true → s.exten = 0 → s.timer = none → exec (.wr32Cr v) s = .next { s with
      scanActive := true, timer := some (s.now + s.params.convTime)
      crStore := v &&& s.params.crStorage
      out := { Outputs.empty with timer := [.arm s.params.convTime] } })

/-- With legal parameters, if WR32 CR, v answers next t, then writing bit 0 of v, then bit 1, then the rest
completes too and ends in t, up to the outputs of the steps: commands are processed in ascending bit order,
each completely before the next. (R132, R138, R278) -/
def Obligations.ControlCommandsInBitOrder : Prop :=
  ∀ (s t : State) (v : Word), s.params.Legal → exec (.wr32Cr v) s = .next t →
    ∃ a b c, exec (.wr32Cr (v &&& 0x1)) s = .next a ∧ exec (.wr32Cr (v &&& 0x2)) a = .next b ∧
      exec (.wr32Cr (v &&& 0xFFFFFFFC)) b = .next c ∧
      t = { c with out := t.out } ∧
      t.out.timer = a.out.timer ++ b.out.timer ++ c.out.timer ∧
      t.out.diags = a.out.diags ++ b.out.diags ++ c.out.diags

/-- For every v, WR32 CR, v answers a next state in every unfaulted state, except where it enables a disabled
block with a non-empty sequence whose slot SQ1 is not below N_CH. (R138, R189) -/
def Obligations.ControlWriteCompletes : Prop :=
  ∀ (s : State) (v : Word), s.faulted = none →
    (v.getLsbD 0 = true → s.enabled = false → s.seqLen ≠ 0 → s.sq[0].toNat < s.params.nCh.val) →
    ∃ t, exec (.wr32Cr v) s = .next t

/-- With EXTEN = 0 an EDGE on any line of the block, matching or not, at any level, answers the state unchanged
with no output. (R222) -/
def Obligations.EdgeIgnoredInInternalMode : Prop :=
  ∀ (s : State) (line : BitVec 5) (level : Bool), s.faulted = none →
    line.toNat < s.params.nTrig.val → s.exten = 0 →
    exec (.edge line level) s = .next s.begun

/-- In an external mode an edge on a line other than EXTSEL only logs UnmatchedTriggerLine, also while disabled;
a matched edge of the wrong polarity, a matched edge while disabled, and, where the instance sets
EDGE_REQUIRES_START, a matched edge before a start-write are dropped silently. (R220, R223, R225) -/
def Obligations.EdgeDropped : Prop :=
  ∀ (s : State) (line : BitVec 5) (level : Bool), s.faulted = none →
    line.toNat < s.params.nTrig.val → s.exten ≠ 0 →
    (line ≠ s.extsel → exec (.edge line level) s = .next (s.logged [.unmatchedTriggerLine line])) ∧
    (line = s.extsel → (s.exten = 1 ∧ level = false) ∨ (s.exten = 2 ∧ level = true) →
      exec (.edge line level) s = .next s.begun) ∧
    (line = s.extsel → s.enabled = false → exec (.edge line level) s = .next s.begun) ∧
    (line = s.extsel → s.params.edgeRequiresStart = true → s.scanActive = false →
      exec (.edge line level) s = .next s.begun)

/-- In a state with State.Inv, enabled, where every slot the drain selects names a channel, an edge that matches
the source and the mode completes seqLen conversions: the positions from the cursor to the last, then, under
the pending length if there is one, as many more from 0. The channel latched for the cursor and then those
of the later slots are popped in that order; the last result is latched; eoc is that of the last completion;
the interrupt rises if enabled, after the first conversion without scan mode and after that of the last
position with it; one DMA pulse a conversion if enabled; the cursor ends at cursor mod the length then in
force, whose slot's channel is latched; a pending length is applied; the timer stays disarmed; nothing else
changes. The count of draws, and the value drawn from an unfed channel, are the model's free value (log 7).
(R190, R191, R192, R193, R194, R196, R224, R227, R229, R254) -/
def Obligations.QualifyingEdgeDrains : Prop :=
  ∀ (s : State) (line : BitVec 5) (level : Bool) (c : Fin Config.maxCh),
    s.Inv → s.faulted = none → s.enabled = true → s.currentChannel = some c →
    (∀ p ∈ drainSelections s, s.sq[p].toNat < s.params.nCh.val) →
    line.toNat < s.params.nTrig.val → line = s.extsel →
    (s.exten = 1 ∧ level = true) ∨ (s.exten = 2 ∧ level = false) ∨ s.exten = 3 →
    s.params.edgeRequiresStart = false ∨ s.scanActive = true →
    ∃ t, exec (.edge line level) s = .next t ∧
      t.chan = (popEach (drainChannels c s) s).1.chan ∧
      t.draws = (popEach (drainChannels c s) s).1.draws ∧
      t.latchedResult = (popEach (drainChannels c s) s).2 ∧
      t.cursor.val = s.cursor.val % s.nextLen ∧ t.seqLen.val = s.nextLen ∧ t.lenDirty = false ∧
      t.currentChannel.map (·.val) = some s.sq[t.cursor].toNat ∧
      (t.eoc = true ↔ s.scanActive = false ∨ t.cursor = 0) ∧
      t.eosmp = (s.eosmp || s.params.eosmpOnCompletion) ∧
      t.irq = (s.irq || s.ier.getLsbD 2) ∧
      t.out = { Outputs.empty with lines := (
        let pulse : List LineAction :=
          if s.params.dmaEnables s.dmngt then [.dmaReq true, .dmaReq false] else []
        let upToIrq := if s.scanActive then s.seqLen.val - s.cursor.val else 1
        (List.replicate upToIrq pulse).flatten ++
          (if s.ier.getLsbD 2 = true ∧ s.irq = false then [.irq true] else []) ++
          (List.replicate (s.seqLen.val - upToIrq) pulse).flatten) } ∧
      t.timer = none ∧
      t = { s with
        chan := t.chan, draws := t.draws, latchedResult := t.latchedResult, eoc := t.eoc
        eosmp := t.eosmp, irq := t.irq, cursor := t.cursor, seqLen := t.seqLen
        lenDirty := t.lenDirty, currentChannel := t.currentChannel, out := t.out }

/-- Under the premises of R228, where the slot of every position of the sequence names a channel, an edge that
qualifies pops the channel of each position once and in order, leaves the last position's result latched,
sets eoc, raises the interrupt line if enabled (in the first completion without scan mode, in the last with
it), emits one DMA pulse per position if enabled, returns the cursor to 0 with the channel of position 0
read again, and changes nothing else. The count of draws, and the value drawn from an unfed channel, are the
model's free value (log 7). (R191, R193, R224, R228) -/
def Obligations.DrainFromPositionZero : Prop :=
  ∀ (s : State) (line : BitVec 5) (level : Bool) (c : Fin Config.maxCh),
    s.Inv → s.faulted = none → s.enabled = true → s.cursor = 0 →
    s.lenDirty = false → s.currentChannel = some c →
    (∀ p : Fin 16, p.val < s.seqLen.val → s.sq[p].toNat < s.params.nCh.val) →
    line.toNat < s.params.nTrig.val → line = s.extsel →
    (s.exten = 1 ∧ level = true) ∨ (s.exten = 2 ∧ level = false) ∨ s.exten = 3 →
    s.params.edgeRequiresStart = false ∨ s.scanActive = true →
    ∃ t, exec (.edge line level) s = .next t ∧
      (let channels := c :: (List.range' 1 (s.seqLen.val - 1)).map
          (fun j => channelAt s.sq[Fin.ofNat 16 j].toNat);
        t.chan = (popEach channels s).1.chan ∧ t.draws = (popEach channels s).1.draws ∧
        t.latchedResult = (popEach channels s).2) ∧
      t.eoc = true ∧ t.irq = (s.irq || s.ier.getLsbD 2) ∧
      t.eosmp = (s.eosmp || s.params.eosmpOnCompletion) ∧
      t.out = { Outputs.empty with lines := (
        let pulse : List LineAction :=
          if s.params.dmaEnables s.dmngt then [.dmaReq true, .dmaReq false] else []
        if s.ier.getLsbD 2 = true ∧ s.irq = false then
          if s.scanActive then (List.replicate s.seqLen.val pulse).flatten ++ [.irq true]
          else pulse ++ [.irq true] ++ (List.replicate (s.seqLen.val - 1) pulse).flatten
        else (List.replicate s.seqLen.val pulse).flatten) } ∧
      t.currentChannel.map (·.val) = some s.sq[0].toNat ∧
      t = { s with
        chan := t.chan, draws := t.draws, latchedResult := t.latchedResult, eoc := t.eoc
        eosmp := t.eosmp, irq := t.irq, currentChannel := t.currentChannel, out := t.out }

/-- In an unfaulted state EXPIRE is refused by its own name where the timer is disarmed, and by another where
the timer is armed for another time than the present. (R238) -/
def Obligations.ExpireNeedsArmedTimer : Prop :=
  ∀ s : State, s.faulted = none →
    (s.timer = none → exec .expire s = .refused .timerNotArmed) ∧
    (∀ deadline, s.timer = some deadline → s.now ≠ deadline →
      exec .expire s = .refused .notAtDeadline)

/-- In a state with State.Inv, the timer armed for the present time and channel c selected, EXPIRE faults with
ChannelOutOfRange(i, v) if the slot of the next position i holds v >= N_CH. If that slot names a channel,
EXPIRE completes: the sample of c is latched under the resolution mask, channel c moves on by one sample (an
unfed channel and every other channel stay as they are), eoc is assigned by the scan policy, one DMA pulse
if enabled, then the interrupt if due, the cursor advances or wraps, a pending length applies on the wrap,
the next channel is read from its slot, and the timer is armed again exactly if continuous or mid-scan, for
now + T_CONV. The count of draws and the value drawn are the model's free value (log 7); the rest is the
rules'. (R189, R190, R191, R192, R193, R194, R195, R196, R238, R254, R261) -/
def Obligations.ExpireCompletesOneConversion : Prop :=
  ∀ (s : State) (c : Fin Config.maxCh) (nxt : Fin 16), s.Inv → s.faulted = none →
    s.timer = some s.now → s.currentChannel = some c →
    nxt.val = (if s.cursor.val + 1 = s.seqLen.val then 0 else s.cursor.val + 1) →
    (s.params.nCh.val ≤ s.sq[nxt].toNat →
      exec .expire s = .fault (.channelOutOfRange nxt s.sq[nxt])) ∧
    (s.sq[nxt].toNat < s.params.nCh.val →
      ∃ t, exec .expire s = .next t ∧
        (∀ v, (s.chan[c]).fed = true → (s.chan[c]).data[(s.chan[c]).pos]? = some v →
          t.latchedResult = v &&& s.params.resolutionMask s.res ∧ t.draws = s.draws) ∧
        ((s.chan[c]).fed = false → t.chan[c] = s.chan[c] ∧
          (∀ u, s.params.unfed = some u →
            t.latchedResult = u &&& s.params.resolutionMask s.res ∧ t.draws = s.draws) ∧
          (s.params.unfed = none →
            t.latchedResult = Config.unfed s.draws &&& s.params.resolutionMask s.res ∧
            t.draws = s.draws + 1)) ∧
        (∀ c' : Fin Config.maxCh, c' ≠ c → t.chan[c'] = s.chan[c']) ∧
        t.chan[c] = popChannel s.chan[c] ∧
        ((s.chan[c]).fed = true →
          ((s.chan[c]).pos + 1 < (s.chan[c]).data.length →
            t.chan[c] = { s.chan[c] with pos := (s.chan[c]).pos + 1 }) ∧
          ((s.chan[c]).pos + 1 = (s.chan[c]).data.length →
            ((s.chan[c]).passesLeft = .forever → t.chan[c] = { s.chan[c] with pos := 0 }) ∧
            (∀ n, (s.chan[c]).passesLeft = .finite (n + 2) →
              t.chan[c] = { s.chan[c] with pos := 0, passesLeft := .finite (n + 1) }) ∧
            ((s.chan[c]).passesLeft = .finite 1 → t.chan[c] = s.chan[c]))) ∧
        (t.eoc = true ↔ s.scanActive = false ∨ s.cursor.val + 1 = s.seqLen.val) ∧
        t.eosmp = (s.eosmp || s.params.eosmpOnCompletion) ∧
        t.irq = (s.irq || (t.eoc && s.ier.getLsbD 2)) ∧
        t.out.lines = (if s.params.dmaEnables s.dmngt then [.dmaReq true, .dmaReq false] else []) ++
          (if t.eoc = true ∧ s.ier.getLsbD 2 = true ∧ s.irq = false then [.irq true] else []) ∧
        t.cursor = nxt ∧
        t.seqLen.val = (if s.lenDirty = true ∧ nxt = 0 then s.l.toNat + 1 else s.seqLen.val) ∧
        t.lenDirty = (s.lenDirty && nxt != 0) ∧
        t.currentChannel.map (·.val) = some s.sq[nxt].toNat ∧
        (if s.cont = true ∨ (s.scanActive = true ∧ s.cursor.val + 1 ≠ s.seqLen.val) then
          t.timer = some (s.now + s.params.convTime) ∧ t.out.timer = [.arm s.params.convTime]
        else t.timer = none ∧ t.out.timer = []) ∧
        t.out.readValue = none ∧ t.out.result = none ∧ t.out.diags = [] ∧
        t = { s with
          chan := t.chan, draws := t.draws, latchedResult := t.latchedResult, eoc := t.eoc
          eosmp := t.eosmp, irq := t.irq, cursor := t.cursor, seqLen := t.seqLen
          lenDirty := t.lenDirty, currentChannel := t.currentChannel, timer := t.timer, out := t.out })

/-- From a state with State.Inv at time t0, continuous, at position 0, with the timer just armed for t0 + T_CONV
and no length pending, if the host delivers n expiries each T_CONV after the one before, the n steps all
complete; then the time is t0 + n T_CONV, the cursor is n mod k with the channel of that position's slot
selected, the last completion set eoc exactly if it was at the last position, and the next completion is due
at t0 + (n + 1) T_CONV, whatever T_CONV is. The inbox that delivers the expiries is the model's form of the
host (log 1). (R194, R201, R240) -/
def Obligations.ContinuousRunCycles : Prop :=
  ∀ (s : State) (n : Nat) (rest : List Delivery), s.Inv → s.SlotsNamed → s.faulted = none →
    s.cont = true → s.cursor = 0 → s.lenDirty = false →
    s.timer = some (s.now + s.params.convTime) →
    s.currentChannel.map (·.val) = some s.sq[0].toNat →
    s.inbox = List.replicate n { elapsed := s.params.convTime, event := { desc := 0x1000 } } ++ rest →
    ∃ (t : State) (p : Fin 16), stepTimes n s = .next t ∧
      t.now = s.now + n * s.params.convTime ∧
      p.val = n % s.seqLen.val ∧ t.cursor = p ∧ t.sq = s.sq ∧ t.seqLen = s.seqLen ∧
      t.currentChannel.map (·.val) = some s.sq[p].toNat ∧
      (0 < n → (t.eoc = true ↔ p.val = 0)) ∧
      t.timer = some (s.now + (n + 1) * s.params.convTime) ∧ t.inbox = rest

/-- FEEDV ch, value, repeatCount: ch >= N_CH gives ConfigError(ChannelOutOfRange), repeatCount 0 gives
ConfigError(ZeroRepeat), each with no state change; otherwise the channel's source is replaced whole, with
FOREVER for a negative count, and nothing else changes. (R120, R252, R256) -/
def Obligations.FeedValue : Prop :=
  (∀ (ch : BitVec 8) (v : Word) (r : Int),
    decode { desc := 0x1800 ||| ch.setWidth 16, val := v, rep := r } = .feedv ch v r) ∧
  ∀ (s : State) (ch : BitVec 8) (v : Word) (r : Int), s.faulted = none →
    (s.params.nCh.val ≤ ch.toNat → exec (.feedv ch v r) s = .next { s with
      out := { Outputs.empty with result := some (.configError .channelOutOfRange) } }) ∧
    (ch.toNat < s.params.nCh.val → r = 0 → exec (.feedv ch v r) s = .next { s with
      out := { Outputs.empty with result := some (.configError .zeroRepeat) } }) ∧
    (ch.toNat < s.params.nCh.val → r ≠ 0 → ∃ c : Fin Config.maxCh, c.val = ch.toNat ∧
      exec (.feedv ch v r) s = .next { s with
        chan := s.chan.set c
          { fed := true, data := [v], pos := 0
            passesLeft := if r < 0 then .forever else .finite r.toNat }
        out := { Outputs.empty with result := some .ok } })

/-- FEEDS ch, values, repeatCount checks the channel, then the parse error, then a zero count, then an empty
list, and reports the first that holds with no state change; otherwise the channel's source is replaced
whole and nothing else changes. (R253, R256, R278) -/
def Obligations.FeedSequence : Prop :=
  (∀ (ch : BitVec 8) (vs : Option (List Word)) (r : Int),
    decode { desc := 0x2000 ||| ch.setWidth 16, values := vs, rep := r } = .feeds ch vs r) ∧
  ∀ (s : State) (ch : BitVec 8) (r : Int), s.faulted = none →
    (∀ vs, s.params.nCh.val ≤ ch.toNat → exec (.feeds ch vs r) s = .next { s with
      out := { Outputs.empty with result := some (.configError .channelOutOfRange) } }) ∧
    (ch.toNat < s.params.nCh.val → exec (.feeds ch none r) s = .next { s with
      out := { Outputs.empty with result := some (.configError .parseError) } }) ∧
    (∀ vs, ch.toNat < s.params.nCh.val → r = 0 → exec (.feeds ch (some vs) r) s = .next { s with
      out := { Outputs.empty with result := some (.configError .zeroRepeat) } }) ∧
    (ch.toNat < s.params.nCh.val → r ≠ 0 → exec (.feeds ch (some []) r) s = .next { s with
      out := { Outputs.empty with result := some (.configError .emptySequence) } }) ∧
    (∀ vs : List Word, ch.toNat < s.params.nCh.val → r ≠ 0 → vs ≠ [] →
      ∃ c : Fin Config.maxCh, c.val = ch.toNat ∧ exec (.feeds ch (some vs) r) s = .next { s with
        chan := s.chan.set c
          { fed := true, data := vs, pos := 0
            passesLeft := if r < 0 then .forever else .finite r.toNat }
        out := { Outputs.empty with result := some .ok } })

/-- After an accepted FEEDS of data of length m with r passes, the n-th pop of the channel yields data[n mod m]
while n < r m and data[m-1] from then on; with FOREVER it yields data[n mod m] for all n; after an accepted
FEEDV every pop yields its value. (R255) -/
def Obligations.PopsAfterFeed : Prop :=
  (∀ (s : State) (ch : Fin Config.maxCh) (data : List Word) (r : Int), s.faulted = none →
    ch.val < s.params.nCh.val →
    r ≠ 0 → data ≠ [] →
    ∃ t, exec (.feeds (BitVec.ofNat 8 ch.val) (some data) r) s = .next t ∧
      ∀ n : Nat, nextSample (popChannel^[n] t.chan[ch]) =
        if r < 0 ∨ n < r.toNat * data.length then data[n % data.length]?
        else data[data.length - 1]?) ∧
  (∀ (s : State) (ch : Fin Config.maxCh) (v : Word) (r : Int), s.faulted = none →
    ch.val < s.params.nCh.val → r ≠ 0 →
    ∃ t, exec (.feedv (BitVec.ofNat 8 ch.val) v r) s = .next t ∧
      ∀ n : Nat, nextSample (popChannel^[n] t.chan[ch]) = some v)

/-- If an event answers a next state with another latched result, it was an expiry, an edge in an external mode,
or RESET. (R198, R27) -/
def Obligations.LatchedResultOnlyByCompletionOrReset : Prop :=
  ∀ (i : Instr) (s t : State), exec i s = .next t → t.latchedResult ≠ s.latchedResult →
    i = .expire ∨ i = .reset ∨ ∃ line level, i = .edge line level ∧ s.exten ≠ 0

/-- If an event takes the interrupt line from low to high, EOCIE was set and the event was an expiry or an edge
in an external mode. (R193, R275, R30) -/
def Obligations.InterruptRisesOnlyInCompletion : Prop :=
  ∀ (i : Instr) (s t : State), exec i s = .next t → s.irq = false → t.irq = true →
    s.ier.getLsbD 2 = true ∧
      (i = .expire ∨ ∃ line level, i = .edge line level ∧ s.exten ≠ 0)

/-- If an event takes the interrupt line from high to low, it was one of the three Data-register reads or RESET;
each of these lowers it in every unfaulted state. (R275, R276, R30) -/
def Obligations.InterruptFallsOnlyOnDataReadOrReset : Prop :=
  (∀ (i : Instr) (s t : State), exec i s = .next t → s.irq = true → t.irq = false →
    i = .rd32Dr ∨ i = .rd16Dr ∨ i = .rd8Dr ∨ i = .reset) ∧
  ∀ (i : Instr) (s : State), (i = .rd32Dr ∨ i = .rd16Dr ∨ i = .rd8Dr ∨ i = .reset) →
    s.faulted = none → ∃ t, exec i s = .next t ∧ t.irq = false

/-- If an event answers a next state with another cursor, it was an expiry, an edge in an external mode, a
Control write with ADDIS that leaves the cursor 0, or RESET, which leaves it 0. (R194, R24) -/
def Obligations.CursorWrittenOnlyByThree : Prop :=
  ∀ (i : Instr) (s t : State), exec i s = .next t → t.cursor ≠ s.cursor →
    i = .expire ∨ (∃ line level, i = .edge line level ∧ s.exten ≠ 0) ∨
      (∃ v : Word, i = .wr32Cr v ∧ v.getLsbD 1 = true ∧ t.cursor = 0) ∨ (i = .reset ∧ t.cursor = 0)

/-- In a state with State.Inv, if an event answers a next state with another timer, it was an expiry, RESET, a
Control write with ADDIS or with ADSTART in internal mode, or a Configuration write that changes EXTEN.
(R242) -/
def Obligations.TimerChangesOnlyWhereListed : Prop :=
  ∀ (i : Instr) (s t : State), s.Inv → exec i s = .next t → t.timer ≠ s.timer →
    i = .expire ∨ i = .reset ∨
      (∃ v : Word, i = .wr32Cr v ∧ (v.getLsbD 1 = true ∨ (v.getLsbD 2 = true ∧ s.exten = 0))) ∨
      (∃ v : Word, i = .wr32Cfgr v ∧ v.extractLsb' 10 2 ≠ s.exten)

/-- If an event answers a next state in which some channel differs, it was a feed, an expiry, an edge in an
external mode, or RESET; and a feed touches no channel but its own. (R250, R258, R31) -/
def Obligations.ChannelsOutOfReachOfTheBus : Prop :=
  (∀ (i : Instr) (s t : State), exec i s = .next t → t.chan ≠ s.chan →
    (∃ ch v r, i = .feedv ch v r) ∨ (∃ ch vs r, i = .feeds ch vs r) ∨ i = .expire ∨ i = .reset ∨
      ∃ line level, i = .edge line level ∧ s.exten ≠ 0) ∧
  (∀ (s t : State) (ch : BitVec 8) (r : Int) (v : Word) (vs : Option (List Word)),
    exec (.feedv ch v r) s = .next t ∨ exec (.feeds ch vs r) s = .next t →
    t = { s with chan := t.chan, out := t.out } ∧
      ∀ c : Fin Config.maxCh, c.val ≠ ch.toNat → t.chan[c] = s.chan[c])

/-- For any bus access (any instruction that is no edge, expiry, feed or reset) and two states that differ only
in their channels, the two answers differ only in their channels: the same next state and outputs otherwise,
or the same stop. (R250, R48) -/
def Obligations.SampleStoreInvisibleToBus : Prop :=
  ∀ (i : Instr) (s : State) (ch : Vector Channel Config.maxCh),
    i ≠ .expire → i ≠ .reset → (∀ line level, i ≠ .edge line level) →
    (∀ c v r, i ≠ .feedv c v r) → (∀ c vs r, i ≠ .feeds c vs r) →
    exec i { s with chan := ch } =
      match exec i s with
      | .next t => .next { t with chan := ch }
      | .fault f => .fault f
      | .refused r => .refused r

/-- In a state with State.Inv, enabled, an edge that matches the source and the mode faults with
ChannelOutOfRange(i, v) if i is the first position among those its drain selects (after each completion the
next position to convert, after the last the position where the cursor ends) whose slot holds a value v >=
N_CH. (R189, R220, R224, R227, R271) -/
def Obligations.DrainFaultsAtFirstUnnamedSlot : Prop :=
  ∀ (s : State) (line : BitVec 5) (level : Bool), s.Inv → s.faulted = none → s.enabled = true →
    line.toNat < s.params.nTrig.val → line = s.extsel →
    (s.exten = 1 ∧ level = true) ∨ (s.exten = 2 ∧ level = false) ∨ s.exten = 3 →
    s.params.edgeRequiresStart = false ∨ s.scanActive = true →
    ∀ (before : List (Fin 16)) (p : Fin 16) (after : List (Fin 16)),
      drainSelections s = before ++ p :: after →
      (∀ q ∈ before, s.sq[q].toNat < s.params.nCh.val) → s.params.nCh.val ≤ s.sq[p].toNat →
      exec (.edge line level) s = .fault (.channelOutOfRange p s.sq[p])
end

