-- ==== Sys2Proof/Laws/State.lean ====
section
/-! SUPPORT. What each shared update leaves alone: one lemma per field per update, for simp. What the updates
do to the fields they change is in `Laws/Ops.lean`. -/

namespace Sys2Proof.Machine

/-! `answerRead` -/

@[simp] theorem answerRead_adrdy (v : ReadValue) (s : State) : (answerRead v s).adrdy = s.adrdy := rfl
@[simp] theorem answerRead_eosmp (v : ReadValue) (s : State) : (answerRead v s).eosmp = s.eosmp := rfl
@[simp] theorem answerRead_eoc (v : ReadValue) (s : State) : (answerRead v s).eoc = s.eoc := rfl
@[simp] theorem answerRead_isrStore (v : ReadValue) (s : State) : (answerRead v s).isrStore = s.isrStore := rfl
@[simp] theorem answerRead_ier (v : ReadValue) (s : State) : (answerRead v s).ier = s.ier := rfl
@[simp] theorem answerRead_crStore (v : ReadValue) (s : State) : (answerRead v s).crStore = s.crStore := rfl
@[simp] theorem answerRead_dmngt (v : ReadValue) (s : State) : (answerRead v s).dmngt = s.dmngt := rfl
@[simp] theorem answerRead_res (v : ReadValue) (s : State) : (answerRead v s).res = s.res := rfl
@[simp] theorem answerRead_extsel (v : ReadValue) (s : State) : (answerRead v s).extsel = s.extsel := rfl
@[simp] theorem answerRead_exten (v : ReadValue) (s : State) : (answerRead v s).exten = s.exten := rfl
@[simp] theorem answerRead_cont (v : ReadValue) (s : State) : (answerRead v s).cont = s.cont := rfl
@[simp] theorem answerRead_cfgrStore (v : ReadValue) (s : State) : (answerRead v s).cfgrStore = s.cfgrStore := rfl
@[simp] theorem answerRead_smpr1 (v : ReadValue) (s : State) : (answerRead v s).smpr1 = s.smpr1 := rfl
@[simp] theorem answerRead_smpr2 (v : ReadValue) (s : State) : (answerRead v s).smpr2 = s.smpr2 := rfl
@[simp] theorem answerRead_l (v : ReadValue) (s : State) : (answerRead v s).l = s.l := rfl
@[simp] theorem answerRead_sq (v : ReadValue) (s : State) : (answerRead v s).sq = s.sq := rfl
@[simp] theorem answerRead_sqr1Store (v : ReadValue) (s : State) : (answerRead v s).sqr1Store = s.sqr1Store := rfl
@[simp] theorem answerRead_sqr2Store (v : ReadValue) (s : State) : (answerRead v s).sqr2Store = s.sqr2Store := rfl
@[simp] theorem answerRead_sqr3Store (v : ReadValue) (s : State) : (answerRead v s).sqr3Store = s.sqr3Store := rfl
@[simp] theorem answerRead_sqr4Store (v : ReadValue) (s : State) : (answerRead v s).sqr4Store = s.sqr4Store := rfl
@[simp] theorem answerRead_latchedResult (v : ReadValue) (s : State) : (answerRead v s).latchedResult = s.latchedResult := rfl
@[simp] theorem answerRead_seqLen (v : ReadValue) (s : State) : (answerRead v s).seqLen = s.seqLen := rfl
@[simp] theorem answerRead_lenDirty (v : ReadValue) (s : State) : (answerRead v s).lenDirty = s.lenDirty := rfl
@[simp] theorem answerRead_cursor (v : ReadValue) (s : State) : (answerRead v s).cursor = s.cursor := rfl
@[simp] theorem answerRead_enabled (v : ReadValue) (s : State) : (answerRead v s).enabled = s.enabled := rfl
@[simp] theorem answerRead_scanActive (v : ReadValue) (s : State) : (answerRead v s).scanActive = s.scanActive := rfl
@[simp] theorem answerRead_currentChannel (v : ReadValue) (s : State) : (answerRead v s).currentChannel = s.currentChannel := rfl
@[simp] theorem answerRead_timer (v : ReadValue) (s : State) : (answerRead v s).timer = s.timer := rfl
@[simp] theorem answerRead_irq (v : ReadValue) (s : State) : (answerRead v s).irq = s.irq := rfl
@[simp] theorem answerRead_dmaReq (v : ReadValue) (s : State) : (answerRead v s).dmaReq = s.dmaReq := rfl
@[simp] theorem answerRead_chan (v : ReadValue) (s : State) : (answerRead v s).chan = s.chan := rfl
@[simp] theorem answerRead_faulted (v : ReadValue) (s : State) : (answerRead v s).faulted = s.faulted := rfl
@[simp] theorem answerRead_params (v : ReadValue) (s : State) : (answerRead v s).params = s.params := rfl
@[simp] theorem answerRead_now (v : ReadValue) (s : State) : (answerRead v s).now = s.now := rfl
@[simp] theorem answerRead_draws (v : ReadValue) (s : State) : (answerRead v s).draws = s.draws := rfl
@[simp] theorem answerRead_inbox (v : ReadValue) (s : State) : (answerRead v s).inbox = s.inbox := rfl

/-! `emitLine` -/

@[simp] theorem emitLine_adrdy (a : LineAction) (s : State) : (emitLine a s).adrdy = s.adrdy := rfl
@[simp] theorem emitLine_eosmp (a : LineAction) (s : State) : (emitLine a s).eosmp = s.eosmp := rfl
@[simp] theorem emitLine_eoc (a : LineAction) (s : State) : (emitLine a s).eoc = s.eoc := rfl
@[simp] theorem emitLine_isrStore (a : LineAction) (s : State) : (emitLine a s).isrStore = s.isrStore := rfl
@[simp] theorem emitLine_ier (a : LineAction) (s : State) : (emitLine a s).ier = s.ier := rfl
@[simp] theorem emitLine_crStore (a : LineAction) (s : State) : (emitLine a s).crStore = s.crStore := rfl
@[simp] theorem emitLine_dmngt (a : LineAction) (s : State) : (emitLine a s).dmngt = s.dmngt := rfl
@[simp] theorem emitLine_res (a : LineAction) (s : State) : (emitLine a s).res = s.res := rfl
@[simp] theorem emitLine_extsel (a : LineAction) (s : State) : (emitLine a s).extsel = s.extsel := rfl
@[simp] theorem emitLine_exten (a : LineAction) (s : State) : (emitLine a s).exten = s.exten := rfl
@[simp] theorem emitLine_cont (a : LineAction) (s : State) : (emitLine a s).cont = s.cont := rfl
@[simp] theorem emitLine_cfgrStore (a : LineAction) (s : State) : (emitLine a s).cfgrStore = s.cfgrStore := rfl
@[simp] theorem emitLine_smpr1 (a : LineAction) (s : State) : (emitLine a s).smpr1 = s.smpr1 := rfl
@[simp] theorem emitLine_smpr2 (a : LineAction) (s : State) : (emitLine a s).smpr2 = s.smpr2 := rfl
@[simp] theorem emitLine_l (a : LineAction) (s : State) : (emitLine a s).l = s.l := rfl
@[simp] theorem emitLine_sq (a : LineAction) (s : State) : (emitLine a s).sq = s.sq := rfl
@[simp] theorem emitLine_sqr1Store (a : LineAction) (s : State) : (emitLine a s).sqr1Store = s.sqr1Store := rfl
@[simp] theorem emitLine_sqr2Store (a : LineAction) (s : State) : (emitLine a s).sqr2Store = s.sqr2Store := rfl
@[simp] theorem emitLine_sqr3Store (a : LineAction) (s : State) : (emitLine a s).sqr3Store = s.sqr3Store := rfl
@[simp] theorem emitLine_sqr4Store (a : LineAction) (s : State) : (emitLine a s).sqr4Store = s.sqr4Store := rfl
@[simp] theorem emitLine_latchedResult (a : LineAction) (s : State) : (emitLine a s).latchedResult = s.latchedResult := rfl
@[simp] theorem emitLine_seqLen (a : LineAction) (s : State) : (emitLine a s).seqLen = s.seqLen := rfl
@[simp] theorem emitLine_lenDirty (a : LineAction) (s : State) : (emitLine a s).lenDirty = s.lenDirty := rfl
@[simp] theorem emitLine_cursor (a : LineAction) (s : State) : (emitLine a s).cursor = s.cursor := rfl
@[simp] theorem emitLine_enabled (a : LineAction) (s : State) : (emitLine a s).enabled = s.enabled := rfl
@[simp] theorem emitLine_scanActive (a : LineAction) (s : State) : (emitLine a s).scanActive = s.scanActive := rfl
@[simp] theorem emitLine_currentChannel (a : LineAction) (s : State) : (emitLine a s).currentChannel = s.currentChannel := rfl
@[simp] theorem emitLine_timer (a : LineAction) (s : State) : (emitLine a s).timer = s.timer := rfl
@[simp] theorem emitLine_irq (a : LineAction) (s : State) : (emitLine a s).irq = s.irq := rfl
@[simp] theorem emitLine_dmaReq (a : LineAction) (s : State) : (emitLine a s).dmaReq = s.dmaReq := rfl
@[simp] theorem emitLine_chan (a : LineAction) (s : State) : (emitLine a s).chan = s.chan := rfl
@[simp] theorem emitLine_faulted (a : LineAction) (s : State) : (emitLine a s).faulted = s.faulted := rfl
@[simp] theorem emitLine_params (a : LineAction) (s : State) : (emitLine a s).params = s.params := rfl
@[simp] theorem emitLine_now (a : LineAction) (s : State) : (emitLine a s).now = s.now := rfl
@[simp] theorem emitLine_draws (a : LineAction) (s : State) : (emitLine a s).draws = s.draws := rfl
@[simp] theorem emitLine_inbox (a : LineAction) (s : State) : (emitLine a s).inbox = s.inbox := rfl

/-! `answerHarness` -/

@[simp] theorem answerHarness_adrdy (r : HarnessResult) (s : State) : (answerHarness r s).adrdy = s.adrdy := rfl
@[simp] theorem answerHarness_eosmp (r : HarnessResult) (s : State) : (answerHarness r s).eosmp = s.eosmp := rfl
@[simp] theorem answerHarness_eoc (r : HarnessResult) (s : State) : (answerHarness r s).eoc = s.eoc := rfl
@[simp] theorem answerHarness_isrStore (r : HarnessResult) (s : State) : (answerHarness r s).isrStore = s.isrStore := rfl
@[simp] theorem answerHarness_ier (r : HarnessResult) (s : State) : (answerHarness r s).ier = s.ier := rfl
@[simp] theorem answerHarness_crStore (r : HarnessResult) (s : State) : (answerHarness r s).crStore = s.crStore := rfl
@[simp] theorem answerHarness_dmngt (r : HarnessResult) (s : State) : (answerHarness r s).dmngt = s.dmngt := rfl
@[simp] theorem answerHarness_res (r : HarnessResult) (s : State) : (answerHarness r s).res = s.res := rfl
@[simp] theorem answerHarness_extsel (r : HarnessResult) (s : State) : (answerHarness r s).extsel = s.extsel := rfl
@[simp] theorem answerHarness_exten (r : HarnessResult) (s : State) : (answerHarness r s).exten = s.exten := rfl
@[simp] theorem answerHarness_cont (r : HarnessResult) (s : State) : (answerHarness r s).cont = s.cont := rfl
@[simp] theorem answerHarness_cfgrStore (r : HarnessResult) (s : State) : (answerHarness r s).cfgrStore = s.cfgrStore := rfl
@[simp] theorem answerHarness_smpr1 (r : HarnessResult) (s : State) : (answerHarness r s).smpr1 = s.smpr1 := rfl
@[simp] theorem answerHarness_smpr2 (r : HarnessResult) (s : State) : (answerHarness r s).smpr2 = s.smpr2 := rfl
@[simp] theorem answerHarness_l (r : HarnessResult) (s : State) : (answerHarness r s).l = s.l := rfl
@[simp] theorem answerHarness_sq (r : HarnessResult) (s : State) : (answerHarness r s).sq = s.sq := rfl
@[simp] theorem answerHarness_sqr1Store (r : HarnessResult) (s : State) : (answerHarness r s).sqr1Store = s.sqr1Store := rfl
@[simp] theorem answerHarness_sqr2Store (r : HarnessResult) (s : State) : (answerHarness r s).sqr2Store = s.sqr2Store := rfl
@[simp] theorem answerHarness_sqr3Store (r : HarnessResult) (s : State) : (answerHarness r s).sqr3Store = s.sqr3Store := rfl
@[simp] theorem answerHarness_sqr4Store (r : HarnessResult) (s : State) : (answerHarness r s).sqr4Store = s.sqr4Store := rfl
@[simp] theorem answerHarness_latchedResult (r : HarnessResult) (s : State) : (answerHarness r s).latchedResult = s.latchedResult := rfl
@[simp] theorem answerHarness_seqLen (r : HarnessResult) (s : State) : (answerHarness r s).seqLen = s.seqLen := rfl
@[simp] theorem answerHarness_lenDirty (r : HarnessResult) (s : State) : (answerHarness r s).lenDirty = s.lenDirty := rfl
@[simp] theorem answerHarness_cursor (r : HarnessResult) (s : State) : (answerHarness r s).cursor = s.cursor := rfl
@[simp] theorem answerHarness_enabled (r : HarnessResult) (s : State) : (answerHarness r s).enabled = s.enabled := rfl
@[simp] theorem answerHarness_scanActive (r : HarnessResult) (s : State) : (answerHarness r s).scanActive = s.scanActive := rfl
@[simp] theorem answerHarness_currentChannel (r : HarnessResult) (s : State) : (answerHarness r s).currentChannel = s.currentChannel := rfl
@[simp] theorem answerHarness_timer (r : HarnessResult) (s : State) : (answerHarness r s).timer = s.timer := rfl
@[simp] theorem answerHarness_irq (r : HarnessResult) (s : State) : (answerHarness r s).irq = s.irq := rfl
@[simp] theorem answerHarness_dmaReq (r : HarnessResult) (s : State) : (answerHarness r s).dmaReq = s.dmaReq := rfl
@[simp] theorem answerHarness_chan (r : HarnessResult) (s : State) : (answerHarness r s).chan = s.chan := rfl
@[simp] theorem answerHarness_faulted (r : HarnessResult) (s : State) : (answerHarness r s).faulted = s.faulted := rfl
@[simp] theorem answerHarness_params (r : HarnessResult) (s : State) : (answerHarness r s).params = s.params := rfl
@[simp] theorem answerHarness_now (r : HarnessResult) (s : State) : (answerHarness r s).now = s.now := rfl
@[simp] theorem answerHarness_draws (r : HarnessResult) (s : State) : (answerHarness r s).draws = s.draws := rfl
@[simp] theorem answerHarness_inbox (r : HarnessResult) (s : State) : (answerHarness r s).inbox = s.inbox := rfl

/-! `commandTimer` -/

@[simp] theorem commandTimer_adrdy (c : TimerCommand) (s : State) : (commandTimer c s).adrdy = s.adrdy := rfl
@[simp] theorem commandTimer_eosmp (c : TimerCommand) (s : State) : (commandTimer c s).eosmp = s.eosmp := rfl
@[simp] theorem commandTimer_eoc (c : TimerCommand) (s : State) : (commandTimer c s).eoc = s.eoc := rfl
@[simp] theorem commandTimer_isrStore (c : TimerCommand) (s : State) : (commandTimer c s).isrStore = s.isrStore := rfl
@[simp] theorem commandTimer_ier (c : TimerCommand) (s : State) : (commandTimer c s).ier = s.ier := rfl
@[simp] theorem commandTimer_crStore (c : TimerCommand) (s : State) : (commandTimer c s).crStore = s.crStore := rfl
@[simp] theorem commandTimer_dmngt (c : TimerCommand) (s : State) : (commandTimer c s).dmngt = s.dmngt := rfl
@[simp] theorem commandTimer_res (c : TimerCommand) (s : State) : (commandTimer c s).res = s.res := rfl
@[simp] theorem commandTimer_extsel (c : TimerCommand) (s : State) : (commandTimer c s).extsel = s.extsel := rfl
@[simp] theorem commandTimer_exten (c : TimerCommand) (s : State) : (commandTimer c s).exten = s.exten := rfl
@[simp] theorem commandTimer_cont (c : TimerCommand) (s : State) : (commandTimer c s).cont = s.cont := rfl
@[simp] theorem commandTimer_cfgrStore (c : TimerCommand) (s : State) : (commandTimer c s).cfgrStore = s.cfgrStore := rfl
@[simp] theorem commandTimer_smpr1 (c : TimerCommand) (s : State) : (commandTimer c s).smpr1 = s.smpr1 := rfl
@[simp] theorem commandTimer_smpr2 (c : TimerCommand) (s : State) : (commandTimer c s).smpr2 = s.smpr2 := rfl
@[simp] theorem commandTimer_l (c : TimerCommand) (s : State) : (commandTimer c s).l = s.l := rfl
@[simp] theorem commandTimer_sq (c : TimerCommand) (s : State) : (commandTimer c s).sq = s.sq := rfl
@[simp] theorem commandTimer_sqr1Store (c : TimerCommand) (s : State) : (commandTimer c s).sqr1Store = s.sqr1Store := rfl
@[simp] theorem commandTimer_sqr2Store (c : TimerCommand) (s : State) : (commandTimer c s).sqr2Store = s.sqr2Store := rfl
@[simp] theorem commandTimer_sqr3Store (c : TimerCommand) (s : State) : (commandTimer c s).sqr3Store = s.sqr3Store := rfl
@[simp] theorem commandTimer_sqr4Store (c : TimerCommand) (s : State) : (commandTimer c s).sqr4Store = s.sqr4Store := rfl
@[simp] theorem commandTimer_latchedResult (c : TimerCommand) (s : State) : (commandTimer c s).latchedResult = s.latchedResult := rfl
@[simp] theorem commandTimer_seqLen (c : TimerCommand) (s : State) : (commandTimer c s).seqLen = s.seqLen := rfl
@[simp] theorem commandTimer_lenDirty (c : TimerCommand) (s : State) : (commandTimer c s).lenDirty = s.lenDirty := rfl
@[simp] theorem commandTimer_cursor (c : TimerCommand) (s : State) : (commandTimer c s).cursor = s.cursor := rfl
@[simp] theorem commandTimer_enabled (c : TimerCommand) (s : State) : (commandTimer c s).enabled = s.enabled := rfl
@[simp] theorem commandTimer_scanActive (c : TimerCommand) (s : State) : (commandTimer c s).scanActive = s.scanActive := rfl
@[simp] theorem commandTimer_currentChannel (c : TimerCommand) (s : State) : (commandTimer c s).currentChannel = s.currentChannel := rfl
@[simp] theorem commandTimer_timer (c : TimerCommand) (s : State) : (commandTimer c s).timer = s.timer := rfl
@[simp] theorem commandTimer_irq (c : TimerCommand) (s : State) : (commandTimer c s).irq = s.irq := rfl
@[simp] theorem commandTimer_dmaReq (c : TimerCommand) (s : State) : (commandTimer c s).dmaReq = s.dmaReq := rfl
@[simp] theorem commandTimer_chan (c : TimerCommand) (s : State) : (commandTimer c s).chan = s.chan := rfl
@[simp] theorem commandTimer_faulted (c : TimerCommand) (s : State) : (commandTimer c s).faulted = s.faulted := rfl
@[simp] theorem commandTimer_params (c : TimerCommand) (s : State) : (commandTimer c s).params = s.params := rfl
@[simp] theorem commandTimer_now (c : TimerCommand) (s : State) : (commandTimer c s).now = s.now := rfl
@[simp] theorem commandTimer_draws (c : TimerCommand) (s : State) : (commandTimer c s).draws = s.draws := rfl
@[simp] theorem commandTimer_inbox (c : TimerCommand) (s : State) : (commandTimer c s).inbox = s.inbox := rfl

/-! `raiseDiag` -/

@[simp] theorem raiseDiag_adrdy (d : Diag) (s : State) : (raiseDiag d s).adrdy = s.adrdy := rfl
@[simp] theorem raiseDiag_eosmp (d : Diag) (s : State) : (raiseDiag d s).eosmp = s.eosmp := rfl
@[simp] theorem raiseDiag_eoc (d : Diag) (s : State) : (raiseDiag d s).eoc = s.eoc := rfl
@[simp] theorem raiseDiag_isrStore (d : Diag) (s : State) : (raiseDiag d s).isrStore = s.isrStore := rfl
@[simp] theorem raiseDiag_ier (d : Diag) (s : State) : (raiseDiag d s).ier = s.ier := rfl
@[simp] theorem raiseDiag_crStore (d : Diag) (s : State) : (raiseDiag d s).crStore = s.crStore := rfl
@[simp] theorem raiseDiag_dmngt (d : Diag) (s : State) : (raiseDiag d s).dmngt = s.dmngt := rfl
@[simp] theorem raiseDiag_res (d : Diag) (s : State) : (raiseDiag d s).res = s.res := rfl
@[simp] theorem raiseDiag_extsel (d : Diag) (s : State) : (raiseDiag d s).extsel = s.extsel := rfl
@[simp] theorem raiseDiag_exten (d : Diag) (s : State) : (raiseDiag d s).exten = s.exten := rfl
@[simp] theorem raiseDiag_cont (d : Diag) (s : State) : (raiseDiag d s).cont = s.cont := rfl
@[simp] theorem raiseDiag_cfgrStore (d : Diag) (s : State) : (raiseDiag d s).cfgrStore = s.cfgrStore := rfl
@[simp] theorem raiseDiag_smpr1 (d : Diag) (s : State) : (raiseDiag d s).smpr1 = s.smpr1 := rfl
@[simp] theorem raiseDiag_smpr2 (d : Diag) (s : State) : (raiseDiag d s).smpr2 = s.smpr2 := rfl
@[simp] theorem raiseDiag_l (d : Diag) (s : State) : (raiseDiag d s).l = s.l := rfl
@[simp] theorem raiseDiag_sq (d : Diag) (s : State) : (raiseDiag d s).sq = s.sq := rfl
@[simp] theorem raiseDiag_sqr1Store (d : Diag) (s : State) : (raiseDiag d s).sqr1Store = s.sqr1Store := rfl
@[simp] theorem raiseDiag_sqr2Store (d : Diag) (s : State) : (raiseDiag d s).sqr2Store = s.sqr2Store := rfl
@[simp] theorem raiseDiag_sqr3Store (d : Diag) (s : State) : (raiseDiag d s).sqr3Store = s.sqr3Store := rfl
@[simp] theorem raiseDiag_sqr4Store (d : Diag) (s : State) : (raiseDiag d s).sqr4Store = s.sqr4Store := rfl
@[simp] theorem raiseDiag_latchedResult (d : Diag) (s : State) : (raiseDiag d s).latchedResult = s.latchedResult := rfl
@[simp] theorem raiseDiag_seqLen (d : Diag) (s : State) : (raiseDiag d s).seqLen = s.seqLen := rfl
@[simp] theorem raiseDiag_lenDirty (d : Diag) (s : State) : (raiseDiag d s).lenDirty = s.lenDirty := rfl
@[simp] theorem raiseDiag_cursor (d : Diag) (s : State) : (raiseDiag d s).cursor = s.cursor := rfl
@[simp] theorem raiseDiag_enabled (d : Diag) (s : State) : (raiseDiag d s).enabled = s.enabled := rfl
@[simp] theorem raiseDiag_scanActive (d : Diag) (s : State) : (raiseDiag d s).scanActive = s.scanActive := rfl
@[simp] theorem raiseDiag_currentChannel (d : Diag) (s : State) : (raiseDiag d s).currentChannel = s.currentChannel := rfl
@[simp] theorem raiseDiag_timer (d : Diag) (s : State) : (raiseDiag d s).timer = s.timer := rfl
@[simp] theorem raiseDiag_irq (d : Diag) (s : State) : (raiseDiag d s).irq = s.irq := rfl
@[simp] theorem raiseDiag_dmaReq (d : Diag) (s : State) : (raiseDiag d s).dmaReq = s.dmaReq := rfl
@[simp] theorem raiseDiag_chan (d : Diag) (s : State) : (raiseDiag d s).chan = s.chan := rfl
@[simp] theorem raiseDiag_faulted (d : Diag) (s : State) : (raiseDiag d s).faulted = s.faulted := rfl
@[simp] theorem raiseDiag_params (d : Diag) (s : State) : (raiseDiag d s).params = s.params := rfl
@[simp] theorem raiseDiag_now (d : Diag) (s : State) : (raiseDiag d s).now = s.now := rfl
@[simp] theorem raiseDiag_draws (d : Diag) (s : State) : (raiseDiag d s).draws = s.draws := rfl
@[simp] theorem raiseDiag_inbox (d : Diag) (s : State) : (raiseDiag d s).inbox = s.inbox := rfl

/-! `pulseDma` -/

@[simp] theorem pulseDma_adrdy (s : State) : (pulseDma s).adrdy = s.adrdy := rfl
@[simp] theorem pulseDma_eosmp (s : State) : (pulseDma s).eosmp = s.eosmp := rfl
@[simp] theorem pulseDma_eoc (s : State) : (pulseDma s).eoc = s.eoc := rfl
@[simp] theorem pulseDma_isrStore (s : State) : (pulseDma s).isrStore = s.isrStore := rfl
@[simp] theorem pulseDma_ier (s : State) : (pulseDma s).ier = s.ier := rfl
@[simp] theorem pulseDma_crStore (s : State) : (pulseDma s).crStore = s.crStore := rfl
@[simp] theorem pulseDma_dmngt (s : State) : (pulseDma s).dmngt = s.dmngt := rfl
@[simp] theorem pulseDma_res (s : State) : (pulseDma s).res = s.res := rfl
@[simp] theorem pulseDma_extsel (s : State) : (pulseDma s).extsel = s.extsel := rfl
@[simp] theorem pulseDma_exten (s : State) : (pulseDma s).exten = s.exten := rfl
@[simp] theorem pulseDma_cont (s : State) : (pulseDma s).cont = s.cont := rfl
@[simp] theorem pulseDma_cfgrStore (s : State) : (pulseDma s).cfgrStore = s.cfgrStore := rfl
@[simp] theorem pulseDma_smpr1 (s : State) : (pulseDma s).smpr1 = s.smpr1 := rfl
@[simp] theorem pulseDma_smpr2 (s : State) : (pulseDma s).smpr2 = s.smpr2 := rfl
@[simp] theorem pulseDma_l (s : State) : (pulseDma s).l = s.l := rfl
@[simp] theorem pulseDma_sq (s : State) : (pulseDma s).sq = s.sq := rfl
@[simp] theorem pulseDma_sqr1Store (s : State) : (pulseDma s).sqr1Store = s.sqr1Store := rfl
@[simp] theorem pulseDma_sqr2Store (s : State) : (pulseDma s).sqr2Store = s.sqr2Store := rfl
@[simp] theorem pulseDma_sqr3Store (s : State) : (pulseDma s).sqr3Store = s.sqr3Store := rfl
@[simp] theorem pulseDma_sqr4Store (s : State) : (pulseDma s).sqr4Store = s.sqr4Store := rfl
@[simp] theorem pulseDma_latchedResult (s : State) : (pulseDma s).latchedResult = s.latchedResult := rfl
@[simp] theorem pulseDma_seqLen (s : State) : (pulseDma s).seqLen = s.seqLen := rfl
@[simp] theorem pulseDma_lenDirty (s : State) : (pulseDma s).lenDirty = s.lenDirty := rfl
@[simp] theorem pulseDma_cursor (s : State) : (pulseDma s).cursor = s.cursor := rfl
@[simp] theorem pulseDma_enabled (s : State) : (pulseDma s).enabled = s.enabled := rfl
@[simp] theorem pulseDma_scanActive (s : State) : (pulseDma s).scanActive = s.scanActive := rfl
@[simp] theorem pulseDma_currentChannel (s : State) : (pulseDma s).currentChannel = s.currentChannel := rfl
@[simp] theorem pulseDma_timer (s : State) : (pulseDma s).timer = s.timer := rfl
@[simp] theorem pulseDma_irq (s : State) : (pulseDma s).irq = s.irq := rfl
@[simp] theorem pulseDma_chan (s : State) : (pulseDma s).chan = s.chan := rfl
@[simp] theorem pulseDma_faulted (s : State) : (pulseDma s).faulted = s.faulted := rfl
@[simp] theorem pulseDma_params (s : State) : (pulseDma s).params = s.params := rfl
@[simp] theorem pulseDma_now (s : State) : (pulseDma s).now = s.now := rfl
@[simp] theorem pulseDma_draws (s : State) : (pulseDma s).draws = s.draws := rfl
@[simp] theorem pulseDma_inbox (s : State) : (pulseDma s).inbox = s.inbox := rfl

/-! `raiseIrq` -/

@[simp] theorem raiseIrq_adrdy (s : State) : (raiseIrq s).adrdy = s.adrdy := by unfold raiseIrq; split <;> rfl
@[simp] theorem raiseIrq_eosmp (s : State) : (raiseIrq s).eosmp = s.eosmp := by unfold raiseIrq; split <;> rfl
@[simp] theorem raiseIrq_eoc (s : State) : (raiseIrq s).eoc = s.eoc := by unfold raiseIrq; split <;> rfl
@[simp] theorem raiseIrq_isrStore (s : State) : (raiseIrq s).isrStore = s.isrStore := by unfold raiseIrq; split <;> rfl
@[simp] theorem raiseIrq_ier (s : State) : (raiseIrq s).ier = s.ier := by unfold raiseIrq; split <;> rfl
@[simp] theorem raiseIrq_crStore (s : State) : (raiseIrq s).crStore = s.crStore := by unfold raiseIrq; split <;> rfl
@[simp] theorem raiseIrq_dmngt (s : State) : (raiseIrq s).dmngt = s.dmngt := by unfold raiseIrq; split <;> rfl
@[simp] theorem raiseIrq_res (s : State) : (raiseIrq s).res = s.res := by unfold raiseIrq; split <;> rfl
@[simp] theorem raiseIrq_extsel (s : State) : (raiseIrq s).extsel = s.extsel := by unfold raiseIrq; split <;> rfl
@[simp] theorem raiseIrq_exten (s : State) : (raiseIrq s).exten = s.exten := by unfold raiseIrq; split <;> rfl
@[simp] theorem raiseIrq_cont (s : State) : (raiseIrq s).cont = s.cont := by unfold raiseIrq; split <;> rfl
@[simp] theorem raiseIrq_cfgrStore (s : State) : (raiseIrq s).cfgrStore = s.cfgrStore := by unfold raiseIrq; split <;> rfl
@[simp] theorem raiseIrq_smpr1 (s : State) : (raiseIrq s).smpr1 = s.smpr1 := by unfold raiseIrq; split <;> rfl
@[simp] theorem raiseIrq_smpr2 (s : State) : (raiseIrq s).smpr2 = s.smpr2 := by unfold raiseIrq; split <;> rfl
@[simp] theorem raiseIrq_l (s : State) : (raiseIrq s).l = s.l := by unfold raiseIrq; split <;> rfl
@[simp] theorem raiseIrq_sq (s : State) : (raiseIrq s).sq = s.sq := by unfold raiseIrq; split <;> rfl
@[simp] theorem raiseIrq_sqr1Store (s : State) : (raiseIrq s).sqr1Store = s.sqr1Store := by unfold raiseIrq; split <;> rfl
@[simp] theorem raiseIrq_sqr2Store (s : State) : (raiseIrq s).sqr2Store = s.sqr2Store := by unfold raiseIrq; split <;> rfl
@[simp] theorem raiseIrq_sqr3Store (s : State) : (raiseIrq s).sqr3Store = s.sqr3Store := by unfold raiseIrq; split <;> rfl
@[simp] theorem raiseIrq_sqr4Store (s : State) : (raiseIrq s).sqr4Store = s.sqr4Store := by unfold raiseIrq; split <;> rfl
@[simp] theorem raiseIrq_latchedResult (s : State) : (raiseIrq s).latchedResult = s.latchedResult := by unfold raiseIrq; split <;> rfl
@[simp] theorem raiseIrq_seqLen (s : State) : (raiseIrq s).seqLen = s.seqLen := by unfold raiseIrq; split <;> rfl
@[simp] theorem raiseIrq_lenDirty (s : State) : (raiseIrq s).lenDirty = s.lenDirty := by unfold raiseIrq; split <;> rfl
@[simp] theorem raiseIrq_cursor (s : State) : (raiseIrq s).cursor = s.cursor := by unfold raiseIrq; split <;> rfl
@[simp] theorem raiseIrq_enabled (s : State) : (raiseIrq s).enabled = s.enabled := by unfold raiseIrq; split <;> rfl
@[simp] theorem raiseIrq_scanActive (s : State) : (raiseIrq s).scanActive = s.scanActive := by unfold raiseIrq; split <;> rfl
@[simp] theorem raiseIrq_currentChannel (s : State) : (raiseIrq s).currentChannel = s.currentChannel := by unfold raiseIrq; split <;> rfl
@[simp] theorem raiseIrq_timer (s : State) : (raiseIrq s).timer = s.timer := by unfold raiseIrq; split <;> rfl
@[simp] theorem raiseIrq_dmaReq (s : State) : (raiseIrq s).dmaReq = s.dmaReq := by unfold raiseIrq; split <;> rfl
@[simp] theorem raiseIrq_chan (s : State) : (raiseIrq s).chan = s.chan := by unfold raiseIrq; split <;> rfl
@[simp] theorem raiseIrq_faulted (s : State) : (raiseIrq s).faulted = s.faulted := by unfold raiseIrq; split <;> rfl
@[simp] theorem raiseIrq_params (s : State) : (raiseIrq s).params = s.params := by unfold raiseIrq; split <;> rfl
@[simp] theorem raiseIrq_now (s : State) : (raiseIrq s).now = s.now := by unfold raiseIrq; split <;> rfl
@[simp] theorem raiseIrq_draws (s : State) : (raiseIrq s).draws = s.draws := by unfold raiseIrq; split <;> rfl
@[simp] theorem raiseIrq_inbox (s : State) : (raiseIrq s).inbox = s.inbox := by unfold raiseIrq; split <;> rfl

/-! `lowerIrq` -/

@[simp] theorem lowerIrq_adrdy (s : State) : (lowerIrq s).adrdy = s.adrdy := by unfold lowerIrq; split <;> rfl
@[simp] theorem lowerIrq_eosmp (s : State) : (lowerIrq s).eosmp = s.eosmp := by unfold lowerIrq; split <;> rfl
@[simp] theorem lowerIrq_eoc (s : State) : (lowerIrq s).eoc = s.eoc := by unfold lowerIrq; split <;> rfl
@[simp] theorem lowerIrq_isrStore (s : State) : (lowerIrq s).isrStore = s.isrStore := by unfold lowerIrq; split <;> rfl
@[simp] theorem lowerIrq_ier (s : State) : (lowerIrq s).ier = s.ier := by unfold lowerIrq; split <;> rfl
@[simp] theorem lowerIrq_crStore (s : State) : (lowerIrq s).crStore = s.crStore := by unfold lowerIrq; split <;> rfl
@[simp] theorem lowerIrq_dmngt (s : State) : (lowerIrq s).dmngt = s.dmngt := by unfold lowerIrq; split <;> rfl
@[simp] theorem lowerIrq_res (s : State) : (lowerIrq s).res = s.res := by unfold lowerIrq; split <;> rfl
@[simp] theorem lowerIrq_extsel (s : State) : (lowerIrq s).extsel = s.extsel := by unfold lowerIrq; split <;> rfl
@[simp] theorem lowerIrq_exten (s : State) : (lowerIrq s).exten = s.exten := by unfold lowerIrq; split <;> rfl
@[simp] theorem lowerIrq_cont (s : State) : (lowerIrq s).cont = s.cont := by unfold lowerIrq; split <;> rfl
@[simp] theorem lowerIrq_cfgrStore (s : State) : (lowerIrq s).cfgrStore = s.cfgrStore := by unfold lowerIrq; split <;> rfl
@[simp] theorem lowerIrq_smpr1 (s : State) : (lowerIrq s).smpr1 = s.smpr1 := by unfold lowerIrq; split <;> rfl
@[simp] theorem lowerIrq_smpr2 (s : State) : (lowerIrq s).smpr2 = s.smpr2 := by unfold lowerIrq; split <;> rfl
@[simp] theorem lowerIrq_l (s : State) : (lowerIrq s).l = s.l := by unfold lowerIrq; split <;> rfl
@[simp] theorem lowerIrq_sq (s : State) : (lowerIrq s).sq = s.sq := by unfold lowerIrq; split <;> rfl
@[simp] theorem lowerIrq_sqr1Store (s : State) : (lowerIrq s).sqr1Store = s.sqr1Store := by unfold lowerIrq; split <;> rfl
@[simp] theorem lowerIrq_sqr2Store (s : State) : (lowerIrq s).sqr2Store = s.sqr2Store := by unfold lowerIrq; split <;> rfl
@[simp] theorem lowerIrq_sqr3Store (s : State) : (lowerIrq s).sqr3Store = s.sqr3Store := by unfold lowerIrq; split <;> rfl
@[simp] theorem lowerIrq_sqr4Store (s : State) : (lowerIrq s).sqr4Store = s.sqr4Store := by unfold lowerIrq; split <;> rfl
@[simp] theorem lowerIrq_latchedResult (s : State) : (lowerIrq s).latchedResult = s.latchedResult := by unfold lowerIrq; split <;> rfl
@[simp] theorem lowerIrq_seqLen (s : State) : (lowerIrq s).seqLen = s.seqLen := by unfold lowerIrq; split <;> rfl
@[simp] theorem lowerIrq_lenDirty (s : State) : (lowerIrq s).lenDirty = s.lenDirty := by unfold lowerIrq; split <;> rfl
@[simp] theorem lowerIrq_cursor (s : State) : (lowerIrq s).cursor = s.cursor := by unfold lowerIrq; split <;> rfl
@[simp] theorem lowerIrq_enabled (s : State) : (lowerIrq s).enabled = s.enabled := by unfold lowerIrq; split <;> rfl
@[simp] theorem lowerIrq_scanActive (s : State) : (lowerIrq s).scanActive = s.scanActive := by unfold lowerIrq; split <;> rfl
@[simp] theorem lowerIrq_currentChannel (s : State) : (lowerIrq s).currentChannel = s.currentChannel := by unfold lowerIrq; split <;> rfl
@[simp] theorem lowerIrq_timer (s : State) : (lowerIrq s).timer = s.timer := by unfold lowerIrq; split <;> rfl
@[simp] theorem lowerIrq_dmaReq (s : State) : (lowerIrq s).dmaReq = s.dmaReq := by unfold lowerIrq; split <;> rfl
@[simp] theorem lowerIrq_chan (s : State) : (lowerIrq s).chan = s.chan := by unfold lowerIrq; split <;> rfl
@[simp] theorem lowerIrq_faulted (s : State) : (lowerIrq s).faulted = s.faulted := by unfold lowerIrq; split <;> rfl
@[simp] theorem lowerIrq_params (s : State) : (lowerIrq s).params = s.params := by unfold lowerIrq; split <;> rfl
@[simp] theorem lowerIrq_now (s : State) : (lowerIrq s).now = s.now := by unfold lowerIrq; split <;> rfl
@[simp] theorem lowerIrq_draws (s : State) : (lowerIrq s).draws = s.draws := by unfold lowerIrq; split <;> rfl
@[simp] theorem lowerIrq_inbox (s : State) : (lowerIrq s).inbox = s.inbox := by unfold lowerIrq; split <;> rfl

/-! `armTimer` -/

@[simp] theorem armTimer_adrdy (s : State) : (armTimer s).adrdy = s.adrdy := by unfold armTimer; split <;> rfl
@[simp] theorem armTimer_eosmp (s : State) : (armTimer s).eosmp = s.eosmp := by unfold armTimer; split <;> rfl
@[simp] theorem armTimer_eoc (s : State) : (armTimer s).eoc = s.eoc := by unfold armTimer; split <;> rfl
@[simp] theorem armTimer_isrStore (s : State) : (armTimer s).isrStore = s.isrStore := by unfold armTimer; split <;> rfl
@[simp] theorem armTimer_ier (s : State) : (armTimer s).ier = s.ier := by unfold armTimer; split <;> rfl
@[simp] theorem armTimer_crStore (s : State) : (armTimer s).crStore = s.crStore := by unfold armTimer; split <;> rfl
@[simp] theorem armTimer_dmngt (s : State) : (armTimer s).dmngt = s.dmngt := by unfold armTimer; split <;> rfl
@[simp] theorem armTimer_res (s : State) : (armTimer s).res = s.res := by unfold armTimer; split <;> rfl
@[simp] theorem armTimer_extsel (s : State) : (armTimer s).extsel = s.extsel := by unfold armTimer; split <;> rfl
@[simp] theorem armTimer_exten (s : State) : (armTimer s).exten = s.exten := by unfold armTimer; split <;> rfl
@[simp] theorem armTimer_cont (s : State) : (armTimer s).cont = s.cont := by unfold armTimer; split <;> rfl
@[simp] theorem armTimer_cfgrStore (s : State) : (armTimer s).cfgrStore = s.cfgrStore := by unfold armTimer; split <;> rfl
@[simp] theorem armTimer_smpr1 (s : State) : (armTimer s).smpr1 = s.smpr1 := by unfold armTimer; split <;> rfl
@[simp] theorem armTimer_smpr2 (s : State) : (armTimer s).smpr2 = s.smpr2 := by unfold armTimer; split <;> rfl
@[simp] theorem armTimer_l (s : State) : (armTimer s).l = s.l := by unfold armTimer; split <;> rfl
@[simp] theorem armTimer_sq (s : State) : (armTimer s).sq = s.sq := by unfold armTimer; split <;> rfl
@[simp] theorem armTimer_sqr1Store (s : State) : (armTimer s).sqr1Store = s.sqr1Store := by unfold armTimer; split <;> rfl
@[simp] theorem armTimer_sqr2Store (s : State) : (armTimer s).sqr2Store = s.sqr2Store := by unfold armTimer; split <;> rfl
@[simp] theorem armTimer_sqr3Store (s : State) : (armTimer s).sqr3Store = s.sqr3Store := by unfold armTimer; split <;> rfl
@[simp] theorem armTimer_sqr4Store (s : State) : (armTimer s).sqr4Store = s.sqr4Store := by unfold armTimer; split <;> rfl
@[simp] theorem armTimer_latchedResult (s : State) : (armTimer s).latchedResult = s.latchedResult := by unfold armTimer; split <;> rfl
@[simp] theorem armTimer_seqLen (s : State) : (armTimer s).seqLen = s.seqLen := by unfold armTimer; split <;> rfl
@[simp] theorem armTimer_lenDirty (s : State) : (armTimer s).lenDirty = s.lenDirty := by unfold armTimer; split <;> rfl
@[simp] theorem armTimer_cursor (s : State) : (armTimer s).cursor = s.cursor := by unfold armTimer; split <;> rfl
@[simp] theorem armTimer_enabled (s : State) : (armTimer s).enabled = s.enabled := by unfold armTimer; split <;> rfl
@[simp] theorem armTimer_scanActive (s : State) : (armTimer s).scanActive = s.scanActive := by unfold armTimer; split <;> rfl
@[simp] theorem armTimer_currentChannel (s : State) : (armTimer s).currentChannel = s.currentChannel := by unfold armTimer; split <;> rfl
@[simp] theorem armTimer_irq (s : State) : (armTimer s).irq = s.irq := by unfold armTimer; split <;> rfl
@[simp] theorem armTimer_dmaReq (s : State) : (armTimer s).dmaReq = s.dmaReq := by unfold armTimer; split <;> rfl
@[simp] theorem armTimer_chan (s : State) : (armTimer s).chan = s.chan := by unfold armTimer; split <;> rfl
@[simp] theorem armTimer_faulted (s : State) : (armTimer s).faulted = s.faulted := by unfold armTimer; split <;> rfl
@[simp] theorem armTimer_params (s : State) : (armTimer s).params = s.params := by unfold armTimer; split <;> rfl
@[simp] theorem armTimer_now (s : State) : (armTimer s).now = s.now := by unfold armTimer; split <;> rfl
@[simp] theorem armTimer_draws (s : State) : (armTimer s).draws = s.draws := by unfold armTimer; split <;> rfl
@[simp] theorem armTimer_inbox (s : State) : (armTimer s).inbox = s.inbox := by unfold armTimer; split <;> rfl

/-! `disarmTimer` -/

@[simp] theorem disarmTimer_adrdy (s : State) : (disarmTimer s).adrdy = s.adrdy := by unfold disarmTimer; split <;> rfl
@[simp] theorem disarmTimer_eosmp (s : State) : (disarmTimer s).eosmp = s.eosmp := by unfold disarmTimer; split <;> rfl
@[simp] theorem disarmTimer_eoc (s : State) : (disarmTimer s).eoc = s.eoc := by unfold disarmTimer; split <;> rfl
@[simp] theorem disarmTimer_isrStore (s : State) : (disarmTimer s).isrStore = s.isrStore := by unfold disarmTimer; split <;> rfl
@[simp] theorem disarmTimer_ier (s : State) : (disarmTimer s).ier = s.ier := by unfold disarmTimer; split <;> rfl
@[simp] theorem disarmTimer_crStore (s : State) : (disarmTimer s).crStore = s.crStore := by unfold disarmTimer; split <;> rfl
@[simp] theorem disarmTimer_dmngt (s : State) : (disarmTimer s).dmngt = s.dmngt := by unfold disarmTimer; split <;> rfl
@[simp] theorem disarmTimer_res (s : State) : (disarmTimer s).res = s.res := by unfold disarmTimer; split <;> rfl
@[simp] theorem disarmTimer_extsel (s : State) : (disarmTimer s).extsel = s.extsel := by unfold disarmTimer; split <;> rfl
@[simp] theorem disarmTimer_exten (s : State) : (disarmTimer s).exten = s.exten := by unfold disarmTimer; split <;> rfl
@[simp] theorem disarmTimer_cont (s : State) : (disarmTimer s).cont = s.cont := by unfold disarmTimer; split <;> rfl
@[simp] theorem disarmTimer_cfgrStore (s : State) : (disarmTimer s).cfgrStore = s.cfgrStore := by unfold disarmTimer; split <;> rfl
@[simp] theorem disarmTimer_smpr1 (s : State) : (disarmTimer s).smpr1 = s.smpr1 := by unfold disarmTimer; split <;> rfl
@[simp] theorem disarmTimer_smpr2 (s : State) : (disarmTimer s).smpr2 = s.smpr2 := by unfold disarmTimer; split <;> rfl
@[simp] theorem disarmTimer_l (s : State) : (disarmTimer s).l = s.l := by unfold disarmTimer; split <;> rfl
@[simp] theorem disarmTimer_sq (s : State) : (disarmTimer s).sq = s.sq := by unfold disarmTimer; split <;> rfl
@[simp] theorem disarmTimer_sqr1Store (s : State) : (disarmTimer s).sqr1Store = s.sqr1Store := by unfold disarmTimer; split <;> rfl
@[simp] theorem disarmTimer_sqr2Store (s : State) : (disarmTimer s).sqr2Store = s.sqr2Store := by unfold disarmTimer; split <;> rfl
@[simp] theorem disarmTimer_sqr3Store (s : State) : (disarmTimer s).sqr3Store = s.sqr3Store := by unfold disarmTimer; split <;> rfl
@[simp] theorem disarmTimer_sqr4Store (s : State) : (disarmTimer s).sqr4Store = s.sqr4Store := by unfold disarmTimer; split <;> rfl
@[simp] theorem disarmTimer_latchedResult (s : State) : (disarmTimer s).latchedResult = s.latchedResult := by unfold disarmTimer; split <;> rfl
@[simp] theorem disarmTimer_seqLen (s : State) : (disarmTimer s).seqLen = s.seqLen := by unfold disarmTimer; split <;> rfl
@[simp] theorem disarmTimer_lenDirty (s : State) : (disarmTimer s).lenDirty = s.lenDirty := by unfold disarmTimer; split <;> rfl
@[simp] theorem disarmTimer_cursor (s : State) : (disarmTimer s).cursor = s.cursor := by unfold disarmTimer; split <;> rfl
@[simp] theorem disarmTimer_enabled (s : State) : (disarmTimer s).enabled = s.enabled := by unfold disarmTimer; split <;> rfl
@[simp] theorem disarmTimer_scanActive (s : State) : (disarmTimer s).scanActive = s.scanActive := by unfold disarmTimer; split <;> rfl
@[simp] theorem disarmTimer_currentChannel (s : State) : (disarmTimer s).currentChannel = s.currentChannel := by unfold disarmTimer; split <;> rfl
@[simp] theorem disarmTimer_irq (s : State) : (disarmTimer s).irq = s.irq := by unfold disarmTimer; split <;> rfl
@[simp] theorem disarmTimer_dmaReq (s : State) : (disarmTimer s).dmaReq = s.dmaReq := by unfold disarmTimer; split <;> rfl
@[simp] theorem disarmTimer_chan (s : State) : (disarmTimer s).chan = s.chan := by unfold disarmTimer; split <;> rfl
@[simp] theorem disarmTimer_faulted (s : State) : (disarmTimer s).faulted = s.faulted := by unfold disarmTimer; split <;> rfl
@[simp] theorem disarmTimer_params (s : State) : (disarmTimer s).params = s.params := by unfold disarmTimer; split <;> rfl
@[simp] theorem disarmTimer_now (s : State) : (disarmTimer s).now = s.now := by unfold disarmTimer; split <;> rfl
@[simp] theorem disarmTimer_draws (s : State) : (disarmTimer s).draws = s.draws := by unfold disarmTimer; split <;> rfl
@[simp] theorem disarmTimer_inbox (s : State) : (disarmTimer s).inbox = s.inbox := by unfold disarmTimer; split <;> rfl

/-! `unnamedAccess` -/

@[simp] theorem unnamedAccess_adrdy (off : Offset) (d : Diag) (s : State) : (unnamedAccess off d s).adrdy = s.adrdy := by unfold unnamedAccess; split <;> rfl
@[simp] theorem unnamedAccess_eosmp (off : Offset) (d : Diag) (s : State) : (unnamedAccess off d s).eosmp = s.eosmp := by unfold unnamedAccess; split <;> rfl
@[simp] theorem unnamedAccess_eoc (off : Offset) (d : Diag) (s : State) : (unnamedAccess off d s).eoc = s.eoc := by unfold unnamedAccess; split <;> rfl
@[simp] theorem unnamedAccess_isrStore (off : Offset) (d : Diag) (s : State) : (unnamedAccess off d s).isrStore = s.isrStore := by unfold unnamedAccess; split <;> rfl
@[simp] theorem unnamedAccess_ier (off : Offset) (d : Diag) (s : State) : (unnamedAccess off d s).ier = s.ier := by unfold unnamedAccess; split <;> rfl
@[simp] theorem unnamedAccess_crStore (off : Offset) (d : Diag) (s : State) : (unnamedAccess off d s).crStore = s.crStore := by unfold unnamedAccess; split <;> rfl
@[simp] theorem unnamedAccess_dmngt (off : Offset) (d : Diag) (s : State) : (unnamedAccess off d s).dmngt = s.dmngt := by unfold unnamedAccess; split <;> rfl
@[simp] theorem unnamedAccess_res (off : Offset) (d : Diag) (s : State) : (unnamedAccess off d s).res = s.res := by unfold unnamedAccess; split <;> rfl
@[simp] theorem unnamedAccess_extsel (off : Offset) (d : Diag) (s : State) : (unnamedAccess off d s).extsel = s.extsel := by unfold unnamedAccess; split <;> rfl
@[simp] theorem unnamedAccess_exten (off : Offset) (d : Diag) (s : State) : (unnamedAccess off d s).exten = s.exten := by unfold unnamedAccess; split <;> rfl
@[simp] theorem unnamedAccess_cont (off : Offset) (d : Diag) (s : State) : (unnamedAccess off d s).cont = s.cont := by unfold unnamedAccess; split <;> rfl
@[simp] theorem unnamedAccess_cfgrStore (off : Offset) (d : Diag) (s : State) : (unnamedAccess off d s).cfgrStore = s.cfgrStore := by unfold unnamedAccess; split <;> rfl
@[simp] theorem unnamedAccess_smpr1 (off : Offset) (d : Diag) (s : State) : (unnamedAccess off d s).smpr1 = s.smpr1 := by unfold unnamedAccess; split <;> rfl
@[simp] theorem unnamedAccess_smpr2 (off : Offset) (d : Diag) (s : State) : (unnamedAccess off d s).smpr2 = s.smpr2 := by unfold unnamedAccess; split <;> rfl
@[simp] theorem unnamedAccess_l (off : Offset) (d : Diag) (s : State) : (unnamedAccess off d s).l = s.l := by unfold unnamedAccess; split <;> rfl
@[simp] theorem unnamedAccess_sq (off : Offset) (d : Diag) (s : State) : (unnamedAccess off d s).sq = s.sq := by unfold unnamedAccess; split <;> rfl
@[simp] theorem unnamedAccess_sqr1Store (off : Offset) (d : Diag) (s : State) : (unnamedAccess off d s).sqr1Store = s.sqr1Store := by unfold unnamedAccess; split <;> rfl
@[simp] theorem unnamedAccess_sqr2Store (off : Offset) (d : Diag) (s : State) : (unnamedAccess off d s).sqr2Store = s.sqr2Store := by unfold unnamedAccess; split <;> rfl
@[simp] theorem unnamedAccess_sqr3Store (off : Offset) (d : Diag) (s : State) : (unnamedAccess off d s).sqr3Store = s.sqr3Store := by unfold unnamedAccess; split <;> rfl
@[simp] theorem unnamedAccess_sqr4Store (off : Offset) (d : Diag) (s : State) : (unnamedAccess off d s).sqr4Store = s.sqr4Store := by unfold unnamedAccess; split <;> rfl
@[simp] theorem unnamedAccess_latchedResult (off : Offset) (d : Diag) (s : State) : (unnamedAccess off d s).latchedResult = s.latchedResult := by unfold unnamedAccess; split <;> rfl
@[simp] theorem unnamedAccess_seqLen (off : Offset) (d : Diag) (s : State) : (unnamedAccess off d s).seqLen = s.seqLen := by unfold unnamedAccess; split <;> rfl
@[simp] theorem unnamedAccess_lenDirty (off : Offset) (d : Diag) (s : State) : (unnamedAccess off d s).lenDirty = s.lenDirty := by unfold unnamedAccess; split <;> rfl
@[simp] theorem unnamedAccess_cursor (off : Offset) (d : Diag) (s : State) : (unnamedAccess off d s).cursor = s.cursor := by unfold unnamedAccess; split <;> rfl
@[simp] theorem unnamedAccess_enabled (off : Offset) (d : Diag) (s : State) : (unnamedAccess off d s).enabled = s.enabled := by unfold unnamedAccess; split <;> rfl
@[simp] theorem unnamedAccess_scanActive (off : Offset) (d : Diag) (s : State) : (unnamedAccess off d s).scanActive = s.scanActive := by unfold unnamedAccess; split <;> rfl
@[simp] theorem unnamedAccess_currentChannel (off : Offset) (d : Diag) (s : State) : (unnamedAccess off d s).currentChannel = s.currentChannel := by unfold unnamedAccess; split <;> rfl
@[simp] theorem unnamedAccess_timer (off : Offset) (d : Diag) (s : State) : (unnamedAccess off d s).timer = s.timer := by unfold unnamedAccess; split <;> rfl
@[simp] theorem unnamedAccess_irq (off : Offset) (d : Diag) (s : State) : (unnamedAccess off d s).irq = s.irq := by unfold unnamedAccess; split <;> rfl
@[simp] theorem unnamedAccess_dmaReq (off : Offset) (d : Diag) (s : State) : (unnamedAccess off d s).dmaReq = s.dmaReq := by unfold unnamedAccess; split <;> rfl
@[simp] theorem unnamedAccess_chan (off : Offset) (d : Diag) (s : State) : (unnamedAccess off d s).chan = s.chan := by unfold unnamedAccess; split <;> rfl
@[simp] theorem unnamedAccess_faulted (off : Offset) (d : Diag) (s : State) : (unnamedAccess off d s).faulted = s.faulted := by unfold unnamedAccess; split <;> rfl
@[simp] theorem unnamedAccess_params (off : Offset) (d : Diag) (s : State) : (unnamedAccess off d s).params = s.params := by unfold unnamedAccess; split <;> rfl
@[simp] theorem unnamedAccess_now (off : Offset) (d : Diag) (s : State) : (unnamedAccess off d s).now = s.now := by unfold unnamedAccess; split <;> rfl
@[simp] theorem unnamedAccess_draws (off : Offset) (d : Diag) (s : State) : (unnamedAccess off d s).draws = s.draws := by unfold unnamedAccess; split <;> rfl
@[simp] theorem unnamedAccess_inbox (off : Offset) (d : Diag) (s : State) : (unnamedAccess off d s).inbox = s.inbox := by unfold unnamedAccess; split <;> rfl

/-! `popState` -/

@[simp] theorem popState_adrdy (c : Fin Config.maxCh) (s : State) : (popState c s).adrdy = s.adrdy := rfl
@[simp] theorem popState_eosmp (c : Fin Config.maxCh) (s : State) : (popState c s).eosmp = s.eosmp := rfl
@[simp] theorem popState_eoc (c : Fin Config.maxCh) (s : State) : (popState c s).eoc = s.eoc := rfl
@[simp] theorem popState_isrStore (c : Fin Config.maxCh) (s : State) : (popState c s).isrStore = s.isrStore := rfl
@[simp] theorem popState_ier (c : Fin Config.maxCh) (s : State) : (popState c s).ier = s.ier := rfl
@[simp] theorem popState_crStore (c : Fin Config.maxCh) (s : State) : (popState c s).crStore = s.crStore := rfl
@[simp] theorem popState_dmngt (c : Fin Config.maxCh) (s : State) : (popState c s).dmngt = s.dmngt := rfl
@[simp] theorem popState_res (c : Fin Config.maxCh) (s : State) : (popState c s).res = s.res := rfl
@[simp] theorem popState_extsel (c : Fin Config.maxCh) (s : State) : (popState c s).extsel = s.extsel := rfl
@[simp] theorem popState_exten (c : Fin Config.maxCh) (s : State) : (popState c s).exten = s.exten := rfl
@[simp] theorem popState_cont (c : Fin Config.maxCh) (s : State) : (popState c s).cont = s.cont := rfl
@[simp] theorem popState_cfgrStore (c : Fin Config.maxCh) (s : State) : (popState c s).cfgrStore = s.cfgrStore := rfl
@[simp] theorem popState_smpr1 (c : Fin Config.maxCh) (s : State) : (popState c s).smpr1 = s.smpr1 := rfl
@[simp] theorem popState_smpr2 (c : Fin Config.maxCh) (s : State) : (popState c s).smpr2 = s.smpr2 := rfl
@[simp] theorem popState_l (c : Fin Config.maxCh) (s : State) : (popState c s).l = s.l := rfl
@[simp] theorem popState_sq (c : Fin Config.maxCh) (s : State) : (popState c s).sq = s.sq := rfl
@[simp] theorem popState_sqr1Store (c : Fin Config.maxCh) (s : State) : (popState c s).sqr1Store = s.sqr1Store := rfl
@[simp] theorem popState_sqr2Store (c : Fin Config.maxCh) (s : State) : (popState c s).sqr2Store = s.sqr2Store := rfl
@[simp] theorem popState_sqr3Store (c : Fin Config.maxCh) (s : State) : (popState c s).sqr3Store = s.sqr3Store := rfl
@[simp] theorem popState_sqr4Store (c : Fin Config.maxCh) (s : State) : (popState c s).sqr4Store = s.sqr4Store := rfl
@[simp] theorem popState_latchedResult (c : Fin Config.maxCh) (s : State) : (popState c s).latchedResult = s.latchedResult := rfl
@[simp] theorem popState_seqLen (c : Fin Config.maxCh) (s : State) : (popState c s).seqLen = s.seqLen := rfl
@[simp] theorem popState_lenDirty (c : Fin Config.maxCh) (s : State) : (popState c s).lenDirty = s.lenDirty := rfl
@[simp] theorem popState_cursor (c : Fin Config.maxCh) (s : State) : (popState c s).cursor = s.cursor := rfl
@[simp] theorem popState_enabled (c : Fin Config.maxCh) (s : State) : (popState c s).enabled = s.enabled := rfl
@[simp] theorem popState_scanActive (c : Fin Config.maxCh) (s : State) : (popState c s).scanActive = s.scanActive := rfl
@[simp] theorem popState_currentChannel (c : Fin Config.maxCh) (s : State) : (popState c s).currentChannel = s.currentChannel := rfl
@[simp] theorem popState_timer (c : Fin Config.maxCh) (s : State) : (popState c s).timer = s.timer := rfl
@[simp] theorem popState_irq (c : Fin Config.maxCh) (s : State) : (popState c s).irq = s.irq := rfl
@[simp] theorem popState_dmaReq (c : Fin Config.maxCh) (s : State) : (popState c s).dmaReq = s.dmaReq := rfl
@[simp] theorem popState_faulted (c : Fin Config.maxCh) (s : State) : (popState c s).faulted = s.faulted := rfl
@[simp] theorem popState_params (c : Fin Config.maxCh) (s : State) : (popState c s).params = s.params := rfl
@[simp] theorem popState_now (c : Fin Config.maxCh) (s : State) : (popState c s).now = s.now := rfl
@[simp] theorem popState_inbox (c : Fin Config.maxCh) (s : State) : (popState c s).inbox = s.inbox := rfl
@[simp] theorem popState_out (c : Fin Config.maxCh) (s : State) : (popState c s).out = s.out := rfl

/-! `advanceCursor` -/

@[simp] theorem advanceCursor_adrdy (s : State) : (advanceCursor s).adrdy = s.adrdy := rfl
@[simp] theorem advanceCursor_eosmp (s : State) : (advanceCursor s).eosmp = s.eosmp := rfl
@[simp] theorem advanceCursor_eoc (s : State) : (advanceCursor s).eoc = s.eoc := rfl
@[simp] theorem advanceCursor_isrStore (s : State) : (advanceCursor s).isrStore = s.isrStore := rfl
@[simp] theorem advanceCursor_ier (s : State) : (advanceCursor s).ier = s.ier := rfl
@[simp] theorem advanceCursor_crStore (s : State) : (advanceCursor s).crStore = s.crStore := rfl
@[simp] theorem advanceCursor_dmngt (s : State) : (advanceCursor s).dmngt = s.dmngt := rfl
@[simp] theorem advanceCursor_res (s : State) : (advanceCursor s).res = s.res := rfl
@[simp] theorem advanceCursor_extsel (s : State) : (advanceCursor s).extsel = s.extsel := rfl
@[simp] theorem advanceCursor_exten (s : State) : (advanceCursor s).exten = s.exten := rfl
@[simp] theorem advanceCursor_cont (s : State) : (advanceCursor s).cont = s.cont := rfl
@[simp] theorem advanceCursor_cfgrStore (s : State) : (advanceCursor s).cfgrStore = s.cfgrStore := rfl
@[simp] theorem advanceCursor_smpr1 (s : State) : (advanceCursor s).smpr1 = s.smpr1 := rfl
@[simp] theorem advanceCursor_smpr2 (s : State) : (advanceCursor s).smpr2 = s.smpr2 := rfl
@[simp] theorem advanceCursor_l (s : State) : (advanceCursor s).l = s.l := rfl
@[simp] theorem advanceCursor_sq (s : State) : (advanceCursor s).sq = s.sq := rfl
@[simp] theorem advanceCursor_sqr1Store (s : State) : (advanceCursor s).sqr1Store = s.sqr1Store := rfl
@[simp] theorem advanceCursor_sqr2Store (s : State) : (advanceCursor s).sqr2Store = s.sqr2Store := rfl
@[simp] theorem advanceCursor_sqr3Store (s : State) : (advanceCursor s).sqr3Store = s.sqr3Store := rfl
@[simp] theorem advanceCursor_sqr4Store (s : State) : (advanceCursor s).sqr4Store = s.sqr4Store := rfl
@[simp] theorem advanceCursor_latchedResult (s : State) : (advanceCursor s).latchedResult = s.latchedResult := rfl
@[simp] theorem advanceCursor_seqLen (s : State) : (advanceCursor s).seqLen = s.seqLen := rfl
@[simp] theorem advanceCursor_lenDirty (s : State) : (advanceCursor s).lenDirty = s.lenDirty := rfl
@[simp] theorem advanceCursor_enabled (s : State) : (advanceCursor s).enabled = s.enabled := rfl
@[simp] theorem advanceCursor_scanActive (s : State) : (advanceCursor s).scanActive = s.scanActive := rfl
@[simp] theorem advanceCursor_currentChannel (s : State) : (advanceCursor s).currentChannel = s.currentChannel := rfl
@[simp] theorem advanceCursor_timer (s : State) : (advanceCursor s).timer = s.timer := rfl
@[simp] theorem advanceCursor_irq (s : State) : (advanceCursor s).irq = s.irq := rfl
@[simp] theorem advanceCursor_dmaReq (s : State) : (advanceCursor s).dmaReq = s.dmaReq := rfl
@[simp] theorem advanceCursor_chan (s : State) : (advanceCursor s).chan = s.chan := rfl
@[simp] theorem advanceCursor_faulted (s : State) : (advanceCursor s).faulted = s.faulted := rfl
@[simp] theorem advanceCursor_params (s : State) : (advanceCursor s).params = s.params := rfl
@[simp] theorem advanceCursor_now (s : State) : (advanceCursor s).now = s.now := rfl
@[simp] theorem advanceCursor_draws (s : State) : (advanceCursor s).draws = s.draws := rfl
@[simp] theorem advanceCursor_inbox (s : State) : (advanceCursor s).inbox = s.inbox := rfl
@[simp] theorem advanceCursor_out (s : State) : (advanceCursor s).out = s.out := rfl

/-! `applyLength` -/

@[simp] theorem applyLength_adrdy (s : State) : (applyLength s).adrdy = s.adrdy := by unfold applyLength; split <;> rfl
@[simp] theorem applyLength_eosmp (s : State) : (applyLength s).eosmp = s.eosmp := by unfold applyLength; split <;> rfl
@[simp] theorem applyLength_eoc (s : State) : (applyLength s).eoc = s.eoc := by unfold applyLength; split <;> rfl
@[simp] theorem applyLength_isrStore (s : State) : (applyLength s).isrStore = s.isrStore := by unfold applyLength; split <;> rfl
@[simp] theorem applyLength_ier (s : State) : (applyLength s).ier = s.ier := by unfold applyLength; split <;> rfl
@[simp] theorem applyLength_crStore (s : State) : (applyLength s).crStore = s.crStore := by unfold applyLength; split <;> rfl
@[simp] theorem applyLength_dmngt (s : State) : (applyLength s).dmngt = s.dmngt := by unfold applyLength; split <;> rfl
@[simp] theorem applyLength_res (s : State) : (applyLength s).res = s.res := by unfold applyLength; split <;> rfl
@[simp] theorem applyLength_extsel (s : State) : (applyLength s).extsel = s.extsel := by unfold applyLength; split <;> rfl
@[simp] theorem applyLength_exten (s : State) : (applyLength s).exten = s.exten := by unfold applyLength; split <;> rfl
@[simp] theorem applyLength_cont (s : State) : (applyLength s).cont = s.cont := by unfold applyLength; split <;> rfl
@[simp] theorem applyLength_cfgrStore (s : State) : (applyLength s).cfgrStore = s.cfgrStore := by unfold applyLength; split <;> rfl
@[simp] theorem applyLength_smpr1 (s : State) : (applyLength s).smpr1 = s.smpr1 := by unfold applyLength; split <;> rfl
@[simp] theorem applyLength_smpr2 (s : State) : (applyLength s).smpr2 = s.smpr2 := by unfold applyLength; split <;> rfl
@[simp] theorem applyLength_l (s : State) : (applyLength s).l = s.l := by unfold applyLength; split <;> rfl
@[simp] theorem applyLength_sq (s : State) : (applyLength s).sq = s.sq := by unfold applyLength; split <;> rfl
@[simp] theorem applyLength_sqr1Store (s : State) : (applyLength s).sqr1Store = s.sqr1Store := by unfold applyLength; split <;> rfl
@[simp] theorem applyLength_sqr2Store (s : State) : (applyLength s).sqr2Store = s.sqr2Store := by unfold applyLength; split <;> rfl
@[simp] theorem applyLength_sqr3Store (s : State) : (applyLength s).sqr3Store = s.sqr3Store := by unfold applyLength; split <;> rfl
@[simp] theorem applyLength_sqr4Store (s : State) : (applyLength s).sqr4Store = s.sqr4Store := by unfold applyLength; split <;> rfl
@[simp] theorem applyLength_latchedResult (s : State) : (applyLength s).latchedResult = s.latchedResult := by unfold applyLength; split <;> rfl
@[simp] theorem applyLength_cursor (s : State) : (applyLength s).cursor = s.cursor := by unfold applyLength; split <;> rfl
@[simp] theorem applyLength_enabled (s : State) : (applyLength s).enabled = s.enabled := by unfold applyLength; split <;> rfl
@[simp] theorem applyLength_scanActive (s : State) : (applyLength s).scanActive = s.scanActive := by unfold applyLength; split <;> rfl
@[simp] theorem applyLength_currentChannel (s : State) : (applyLength s).currentChannel = s.currentChannel := by unfold applyLength; split <;> rfl
@[simp] theorem applyLength_timer (s : State) : (applyLength s).timer = s.timer := by unfold applyLength; split <;> rfl
@[simp] theorem applyLength_irq (s : State) : (applyLength s).irq = s.irq := by unfold applyLength; split <;> rfl
@[simp] theorem applyLength_dmaReq (s : State) : (applyLength s).dmaReq = s.dmaReq := by unfold applyLength; split <;> rfl
@[simp] theorem applyLength_chan (s : State) : (applyLength s).chan = s.chan := by unfold applyLength; split <;> rfl
@[simp] theorem applyLength_faulted (s : State) : (applyLength s).faulted = s.faulted := by unfold applyLength; split <;> rfl
@[simp] theorem applyLength_params (s : State) : (applyLength s).params = s.params := by unfold applyLength; split <;> rfl
@[simp] theorem applyLength_now (s : State) : (applyLength s).now = s.now := by unfold applyLength; split <;> rfl
@[simp] theorem applyLength_draws (s : State) : (applyLength s).draws = s.draws := by unfold applyLength; split <;> rfl
@[simp] theorem applyLength_inbox (s : State) : (applyLength s).inbox = s.inbox := by unfold applyLength; split <;> rfl
@[simp] theorem applyLength_out (s : State) : (applyLength s).out = s.out := by unfold applyLength; split <;> rfl

/-! `lengthWritten` -/

@[simp] theorem lengthWritten_adrdy (s : State) : (lengthWritten s).adrdy = s.adrdy := by unfold lengthWritten; split <;> rfl
@[simp] theorem lengthWritten_eosmp (s : State) : (lengthWritten s).eosmp = s.eosmp := by unfold lengthWritten; split <;> rfl
@[simp] theorem lengthWritten_eoc (s : State) : (lengthWritten s).eoc = s.eoc := by unfold lengthWritten; split <;> rfl
@[simp] theorem lengthWritten_isrStore (s : State) : (lengthWritten s).isrStore = s.isrStore := by unfold lengthWritten; split <;> rfl
@[simp] theorem lengthWritten_ier (s : State) : (lengthWritten s).ier = s.ier := by unfold lengthWritten; split <;> rfl
@[simp] theorem lengthWritten_crStore (s : State) : (lengthWritten s).crStore = s.crStore := by unfold lengthWritten; split <;> rfl
@[simp] theorem lengthWritten_dmngt (s : State) : (lengthWritten s).dmngt = s.dmngt := by unfold lengthWritten; split <;> rfl
@[simp] theorem lengthWritten_res (s : State) : (lengthWritten s).res = s.res := by unfold lengthWritten; split <;> rfl
@[simp] theorem lengthWritten_extsel (s : State) : (lengthWritten s).extsel = s.extsel := by unfold lengthWritten; split <;> rfl
@[simp] theorem lengthWritten_exten (s : State) : (lengthWritten s).exten = s.exten := by unfold lengthWritten; split <;> rfl
@[simp] theorem lengthWritten_cont (s : State) : (lengthWritten s).cont = s.cont := by unfold lengthWritten; split <;> rfl
@[simp] theorem lengthWritten_cfgrStore (s : State) : (lengthWritten s).cfgrStore = s.cfgrStore := by unfold lengthWritten; split <;> rfl
@[simp] theorem lengthWritten_smpr1 (s : State) : (lengthWritten s).smpr1 = s.smpr1 := by unfold lengthWritten; split <;> rfl
@[simp] theorem lengthWritten_smpr2 (s : State) : (lengthWritten s).smpr2 = s.smpr2 := by unfold lengthWritten; split <;> rfl
@[simp] theorem lengthWritten_l (s : State) : (lengthWritten s).l = s.l := by unfold lengthWritten; split <;> rfl
@[simp] theorem lengthWritten_sq (s : State) : (lengthWritten s).sq = s.sq := by unfold lengthWritten; split <;> rfl
@[simp] theorem lengthWritten_sqr1Store (s : State) : (lengthWritten s).sqr1Store = s.sqr1Store := by unfold lengthWritten; split <;> rfl
@[simp] theorem lengthWritten_sqr2Store (s : State) : (lengthWritten s).sqr2Store = s.sqr2Store := by unfold lengthWritten; split <;> rfl
@[simp] theorem lengthWritten_sqr3Store (s : State) : (lengthWritten s).sqr3Store = s.sqr3Store := by unfold lengthWritten; split <;> rfl
@[simp] theorem lengthWritten_sqr4Store (s : State) : (lengthWritten s).sqr4Store = s.sqr4Store := by unfold lengthWritten; split <;> rfl
@[simp] theorem lengthWritten_latchedResult (s : State) : (lengthWritten s).latchedResult = s.latchedResult := by unfold lengthWritten; split <;> rfl
@[simp] theorem lengthWritten_cursor (s : State) : (lengthWritten s).cursor = s.cursor := by unfold lengthWritten; split <;> rfl
@[simp] theorem lengthWritten_enabled (s : State) : (lengthWritten s).enabled = s.enabled := by unfold lengthWritten; split <;> rfl
@[simp] theorem lengthWritten_scanActive (s : State) : (lengthWritten s).scanActive = s.scanActive := by unfold lengthWritten; split <;> rfl
@[simp] theorem lengthWritten_currentChannel (s : State) : (lengthWritten s).currentChannel = s.currentChannel := by unfold lengthWritten; split <;> rfl
@[simp] theorem lengthWritten_timer (s : State) : (lengthWritten s).timer = s.timer := by unfold lengthWritten; split <;> rfl
@[simp] theorem lengthWritten_irq (s : State) : (lengthWritten s).irq = s.irq := by unfold lengthWritten; split <;> rfl
@[simp] theorem lengthWritten_dmaReq (s : State) : (lengthWritten s).dmaReq = s.dmaReq := by unfold lengthWritten; split <;> rfl
@[simp] theorem lengthWritten_chan (s : State) : (lengthWritten s).chan = s.chan := by unfold lengthWritten; split <;> rfl
@[simp] theorem lengthWritten_faulted (s : State) : (lengthWritten s).faulted = s.faulted := by unfold lengthWritten; split <;> rfl
@[simp] theorem lengthWritten_params (s : State) : (lengthWritten s).params = s.params := by unfold lengthWritten; split <;> rfl
@[simp] theorem lengthWritten_now (s : State) : (lengthWritten s).now = s.now := by unfold lengthWritten; split <;> rfl
@[simp] theorem lengthWritten_draws (s : State) : (lengthWritten s).draws = s.draws := by unfold lengthWritten; split <;> rfl
@[simp] theorem lengthWritten_inbox (s : State) : (lengthWritten s).inbox = s.inbox := by unfold lengthWritten; split <;> rfl
@[simp] theorem lengthWritten_out (s : State) : (lengthWritten s).out = s.out := by unfold lengthWritten; split <;> rfl

end Sys2Proof.Machine
end

