-- ==== Sys2Proof/Laws/Ops.lean ====
section
/-! SUPPORT. One lemma per shared operation that says once what it does; proofs cite these instead of
unfolding the operation. -/

namespace Sys2Proof.Machine

/-! Sequencing -/

@[simp] theorem andThen_next (s : State) (f : State → Result) : andThen (.next s) f = f s := rfl

@[simp] theorem andThen_fault (x : Fault) (f : State → Result) : andThen (.fault x) f = .fault x := rfl

@[simp] theorem andThen_refused (x : Refusal) (f : State → Result) :
    andThen (.refused x) f = .refused x := rfl

/-- A sequence answers a next state exactly when both parts do. -/
theorem andThen_eq_next_iff {r : Result} {f : State → Result} {t : State} :
    andThen r f = .next t ↔ ∃ s, r = .next s ∧ f s = .next t := by
  cases r <;> simp [andThen]

/-- A sequence faults exactly when one of its parts does. -/
theorem andThen_eq_fault_iff {r : Result} {f : State → Result} {x : Fault} :
    andThen r f = .fault x ↔ r = .fault x ∨ ∃ s, r = .next s ∧ f s = .fault x := by
  cases r <;> simp [andThen]

/-- An unfaulted block processes the event, with no outputs yet (R10, R11). -/
theorem onEvent_of_unfaulted {s : State} (h : s.faulted = none) (body : State → Result) :
    onEvent s body = body s.begun := by simp [onEvent, h, State.begun]

/-- An event that answers a next state was offered to an unfaulted block (R289). -/
theorem onEvent_eq_next_iff {s t : State} {body : State → Result} :
    onEvent s body = .next t ↔ s.faulted = none ∧ body s.begun = .next t := by
  cases h : s.faulted <;> simp [onEvent, h, State.begun]

/-- An event that faults was offered to an unfaulted block, whose processing of it faults. -/
theorem onEvent_eq_fault_iff {s : State} {body : State → Result} {x : Fault} :
    onEvent s body = .fault x ↔ s.faulted = none ∧ body s.begun = .fault x := by
  cases h : s.faulted <;> simp [onEvent, h, State.begun]

/-! Lines and timer -/

/-- Raising the interrupt line, whole (R193). -/
theorem raiseIrq_eq (s : State) :
    raiseIrq s = { s with
      irq := true
      out := { s.out with lines := s.out.lines ++ if s.irq then [] else [.irq true] } } := by
  cases s with
  | mk => unfold raiseIrq emitLine; split <;> simp_all

/-- Lowering the interrupt line, whole (R147). -/
theorem lowerIrq_eq (s : State) :
    lowerIrq s = { s with
      irq := false
      out := { s.out with lines := s.out.lines ++ if s.irq then [.irq false] else [] } } := by
  cases s with
  | mk => unfold lowerIrq emitLine; split <;> simp_all

/-- The DMA-request pulse, whole (R192). -/
theorem pulseDma_eq (s : State) :
    pulseDma s = { s with
      dmaReq := false
      out := { s.out with lines := s.out.lines ++ [.dmaReq true, .dmaReq false] } } := by
  simp [pulseDma, emitLine]

/-- Arming the timer, whole (R236). -/
theorem armTimer_eq (s : State) :
    armTimer s = { s with
      timer := some (s.timer.getD (nextDeadline s))
      out := { s.out with
        timer := s.out.timer ++ if s.timer.isSome then [] else [.arm s.params.convTime] } } := by
  cases s with
  | mk => unfold armTimer commandTimer; split <;> simp_all

/-- Disarming the timer, whole (R237). -/
theorem disarmTimer_eq (s : State) :
    disarmTimer s = { s with
      timer := none
      out := { s.out with timer := s.out.timer ++ if s.timer.isSome then [.disarm] else [] } } := by
  cases s with
  | mk => unfold disarmTimer commandTimer; split <;> simp_all

/-! Sequencer -/

@[simp] theorem lengthValue_val (l : BitVec 4) : (lengthValue l).val = l.toNat + 1 := by
  have := l.isLt
  simp only [lengthValue, Fin.val_ofNat]
  omega

/-- Applying a deferred length, whole (R196). -/
theorem applyLength_eq (s : State) :
    applyLength s = { s with
      seqLen := if s.lenDirty && s.cursor == 0 then lengthValue s.l else s.seqLen
      lenDirty := s.lenDirty && !(s.cursor == 0) } := by
  cases s with
  | mk => unfold applyLength; split <;> simp_all

/-- Writing the length field, whole (R197). -/
theorem lengthWritten_eq (s : State) :
    lengthWritten s = { s with
      seqLen := if s.cursor == 0 then lengthValue s.l else s.seqLen
      lenDirty := !(s.cursor == 0) } := by
  cases s with
  | mk => unfold lengthWritten; split <;> simp_all

/-- What the cursor becomes (R194), where it is in range. -/
theorem advanceCursor_cursor_val {s : State} (h : s.cursor.val < s.seqLen.val) :
    (advanceCursor s).cursor.val = if s.cursor.val + 1 = s.seqLen.val then 0 else s.cursor.val + 1 := by
  have hk := s.seqLen.isLt
  simp only [advanceCursor, Fin.val_ofNat]
  split
  · simp_all
  · have hm : (s.cursor.val + 1) % s.seqLen.val = s.cursor.val + 1 := Nat.mod_eq_of_lt (by omega)
    rw [hm, Nat.mod_eq_of_lt (by omega)]

/-- Selection answers a next state exactly when the slot names a channel, and then latches it (R189). -/
theorem selectChannel_eq_next_iff {i : Fin 16} {s t : State} :
    selectChannel i s = .next t ↔ s.sq[i].toNat < s.params.nCh.val ∧
      t = { s with currentChannel := some (channelAt s.sq[i].toNat) } := by
  unfold selectChannel raiseFault
  split <;> simp_all [eq_comm]

/-- Selection faults exactly when the slot names no channel (R189). -/
theorem selectChannel_eq_fault_iff {i : Fin 16} {s : State} {f : Fault} :
    selectChannel i s = .fault f ↔
      s.params.nCh.val ≤ s.sq[i].toNat ∧ f = .channelOutOfRange i s.sq[i] := by
  unfold selectChannel raiseFault
  split
  · simp only [reduceCtorEq, false_iff]; omega
  · simp only [Host.Outcome.fault.injEq, eq_comm, iff_and_self]; omega

theorem selectChannel_ne_refused (i : Fin 16) (s : State) (r : Refusal) :
    selectChannel i s ≠ .refused r := by
  unfold selectChannel raiseFault
  split <;> simp

/-! Completion -/

/-- The first half of a completion, whole (R190): pop, latch, flag, pulse, interrupt. -/
theorem finishConversion_eq (c : Fin Config.maxCh) (s : State) :
    finishConversion c s = { s with
      chan := (popState c s).chan
      draws := (popState c s).draws
      latchedResult := popValue c s &&& s.params.resolutionMask s.res
      eoc := endOfConversion s
      eosmp := s.eosmp || s.params.eosmpOnCompletion
      irq := s.irq || (endOfConversion s && eocInterruptEnabled s)
      dmaReq := if dmaEnabled s then false else s.dmaReq
      out := { s.out with
        lines := s.out.lines ++ (if dmaEnabled s then [.dmaReq true, .dmaReq false] else []) ++
          if endOfConversion s && eocInterruptEnabled s && !s.irq then [.irq true] else [] } } := by
  rcases Bool.eq_false_or_eq_true (s.params.dmaEnables s.dmngt) with hd | hd <;>
    rcases Bool.eq_false_or_eq_true (endOfConversion s) with he | he <;>
    rcases Bool.eq_false_or_eq_true s.ier[2] with hi | hi <;>
    rcases Bool.eq_false_or_eq_true s.irq with hq | hq <;>
    rcases Bool.eq_false_or_eq_true s.params.eosmpOnCompletion with hp | hp <;>
    simp [finishConversion, popState, dmaEnabled, eocInterruptEnabled, raiseIrq_eq, pulseDma_eq, hd, he,
      hi, hq, hp]

/-- The second half of a completion (R190) answers a next state exactly when the next slot names a
channel. -/
theorem nextConversion_eq_next_iff {s t : State} :
    nextConversion s = .next t ↔
      s.sq[(advanceCursor s).cursor].toNat < s.params.nCh.val ∧
        t = (if rearms s then armTimer else id)
          { applyLength (advanceCursor s) with
            currentChannel := some (channelAt s.sq[(advanceCursor s).cursor].toNat) } := by
  unfold nextConversion
  simp only [andThen_eq_next_iff, selectChannel_eq_next_iff, applyLength_sq, applyLength_cursor,
    applyLength_params, advanceCursor_sq, advanceCursor_params]
  constructor
  · rintro ⟨u, ⟨h, rfl⟩, ht⟩
    refine ⟨h, ?_⟩
    cases hr : rearms s <;> simp_all
  · rintro ⟨h, rfl⟩
    refine ⟨_, ⟨h, rfl⟩, ?_⟩
    cases hr : rearms s <;> simp

/-- A completion answers a next state only inside R190's precondition, and then through both halves. -/
theorem complete_eq_next_iff {s t : State} :
    complete s = .next t ↔
      ∃ c, s.currentChannel = some c ∧ s.enabled = true ∧ s.seqLen ≠ 0 ∧ s.timer = none ∧
        nextConversion (finishConversion c s) = .next t := by
  unfold complete
  cases hc : s.currentChannel with
  | none => simp
  | some c =>
    cases he : s.enabled <;> cases ht : s.timer <;> by_cases hk : s.seqLen = 0 <;> simp_all

/-- Inside R190's precondition a completion is its two halves. -/
theorem complete_of_precondition {s : State} {c : Fin Config.maxCh} (hc : s.currentChannel = some c)
    (he : s.enabled = true) (hk : s.seqLen ≠ 0) (ht : s.timer = none) :
    complete s = nextConversion (finishConversion c s) := by
  simp [complete, hc, he, hk, ht]

/-- The state after a completion of channel `c` whose next slot names channel `d`, whole (R190 to R196). -/
def completed (c d : Fin Config.maxCh) (s : State) : State :=
  { s with
    chan := (popState c s).chan
    draws := (popState c s).draws
    latchedResult := popValue c s &&& s.params.resolutionMask s.res
    eoc := endOfConversion s
    eosmp := s.eosmp || s.params.eosmpOnCompletion
    irq := s.irq || (endOfConversion s && eocInterruptEnabled s)
    dmaReq := if dmaEnabled s then false else s.dmaReq
    cursor := (advanceCursor s).cursor
    seqLen := if s.lenDirty && (advanceCursor s).cursor == 0 then lengthValue s.l else s.seqLen
    lenDirty := s.lenDirty && !((advanceCursor s).cursor == 0)
    currentChannel := some d
    timer := if rearms s then some (nextDeadline s) else none
    out := { s.out with
      lines := s.out.lines ++ (if dmaEnabled s then [.dmaReq true, .dmaReq false] else []) ++
        if endOfConversion s && eocInterruptEnabled s && !s.irq then [.irq true] else []
      timer := s.out.timer ++ if rearms s then [.arm s.params.convTime] else [] } }

/-- The second half of a completion after the first, whole. -/
theorem nextConversion_finishConversion_eq_next_iff {c : Fin Config.maxCh} {s t : State}
    (ht : s.timer = none) :
    nextConversion (finishConversion c s) = .next t ↔
      s.sq[(advanceCursor s).cursor].toNat < s.params.nCh.val ∧
        t = completed c (channelAt s.sq[(advanceCursor s).cursor].toNat) s := by
  have hf := finishConversion_eq c s
  generalize finishConversion c s = u at hf
  subst hf
  rw [nextConversion_eq_next_iff]
  refine and_congr_right fun _ => Eq.congr_right ?_
  rw [applyLength_eq]
  change (if rearms s = true then armTimer else id) _ = _
  cases hr : rearms s
  · simp [completed, advanceCursor, ht, hr]
  · rw [if_pos rfl, armTimer_eq]
    simp [completed, advanceCursor, nextDeadline, ht, hr]

/-- When a completion answers a next state, and which (R190 to R196). -/
theorem complete_eq_next_iff_completed {s t : State} :
    complete s = .next t ↔
      ∃ c, s.currentChannel = some c ∧ s.enabled = true ∧ s.seqLen ≠ 0 ∧ s.timer = none ∧
        s.sq[(advanceCursor s).cursor].toNat < s.params.nCh.val ∧
          t = completed c (channelAt s.sq[(advanceCursor s).cursor].toNat) s := by
  rw [complete_eq_next_iff]
  constructor
  · rintro ⟨c, h1, h2, h3, h4, h5⟩
    exact ⟨c, h1, h2, h3, h4, (nextConversion_finishConversion_eq_next_iff h4).1 h5⟩
  · rintro ⟨c, h1, h2, h3, h4, h5⟩
    exact ⟨c, h1, h2, h3, h4, (nextConversion_finishConversion_eq_next_iff h4).2 h5⟩

@[simp] theorem drain_zero (s : State) : drain 0 s = .next s := rfl

@[simp] theorem drain_succ (n : Nat) (s : State) :
    drain (n + 1) s = andThen (complete s) (drain n) := rfl

/-- What every completion keeps, every drain keeps: induction over the number of completions, once. -/
theorem drain_induction {P : State → State → Prop} (hrefl : ∀ s, P s s)
    (hstep : ∀ s t u, complete s = .next t → P t u → P s u) :
    ∀ (n : Nat) (s t : State), drain n s = .next t → P s t
  | 0, s, t, h => by cases h; exact hrefl s
  | n + 1, s, t, h => by
    obtain ⟨u, hu, ht⟩ := andThen_eq_next_iff.1 h
    exact hstep s u t hu (drain_induction hrefl hstep n u t ht)

/-! Channels -/

/-- The channel of an index below 32 has that index. -/
theorem channelAt_val {n : Nat} (h : n < Config.maxCh) : (channelAt n).val = n := by
  simpa [channelAt] using Nat.mod_eq_of_lt h

/-- A slot always names one of the 32 entries (R8). -/
@[simp] theorem channelAt_slot_val (c : BitVec 5) : (channelAt c.toNat).val = c.toNat :=
  channelAt_val c.isLt

/-- A pop keeps a channel's record well formed (R32 item 8). -/
theorem popChannel_wf {c : Channel} (h : c.wf = true) : (popChannel c).wf = true := by
  cases c with
  | mk fed data pos passes =>
    cases fed with
    | false => simp [popChannel, Channel.wf]
    | true =>
      have hw : pos < data.length := by simp_all [Channel.wf]
      by_cases hp : pos + 1 < data.length
      · cases passes <;> simp_all [popChannel, Channel.wf]
      · cases passes with
        | forever => simp [popChannel, Channel.wf, hp]; omega
        | finite n =>
          by_cases hn : n > 1
          · simp [popChannel, Channel.wf, hp, hn]; omega
          · simp [popChannel, hp, hn, h]

/-- A well-formed fed channel has a next sample, the value at its position (R254). -/
theorem nextSample_of_wf {c : Channel} (h : c.wf = true) (hf : c.fed = true) :
    ∃ v, c.data[c.pos]? = some v ∧ nextSample c = some v := by
  simp only [Channel.wf, hf, Bool.not_true, Bool.false_or, Bool.and_eq_true, decide_eq_true_eq] at h
  exact ⟨c.data[c.pos], by simp [h.1], by simp [nextSample, hf, h.1]⟩

/-- An accepted feed installs a well-formed record (R252, R253). -/
theorem passesOf_wf {values : List Word} {rep : Int} (hv : values ≠ []) (hr : rep ≠ 0) :
    Channel.wf { fed := true, data := values, pos := 0, passesLeft := passesOf rep } = true := by
  have hl : 0 < values.length := List.length_pos_iff.2 hv
  simp only [Channel.wf, passesOf]
  split <;> simp_all
  split at * <;> simp_all
  omega

/-- `RESET` keeps a channel's record well formed (R259). -/
theorem resetChannel_wf {c : Channel} (h : c.wf = true) : (resetChannel c).wf = true := by
  cases c with
  | mk fed data pos passes => cases fed <;> cases passes <;> simp_all [resetChannel, Channel.wf]

/-! Accesses without effect -/

/-- An access where no register stands, whole (R151, R152). -/
theorem unnamedAccess_eq (off : Offset) (d : Diag) (s : State) :
    unnamedAccess off d s = { s with
      out := { s.out with
        diags := s.out.diags ++ if s.params.inertOffsets.contains off then [] else [d] } } := by
  cases s with
  | mk => unfold unnamedAccess raiseDiag; split <;> simp_all

/-! Delivery -/

theorem step_of_inbox_nil {s : State} (h : s.inbox = []) : step s = .next s := by
  simp [step, fetchEvent, h]

/-- What a step does with a delivery (R9, R79, R240). -/
theorem step_of_inbox_cons {s : State} {d : Delivery} {rest : List Delivery} (h : s.inbox = d :: rest) :
    step s = if passesDeadline s { s with inbox := rest, now := s.now + d.elapsed } then
        .refused .deadlinePassed
      else exec (decode d.event) { s with inbox := rest, now := s.now + d.elapsed } := by
  simp [step, fetchEvent, h]

/-- When a delivery passes an armed deadline (R240). -/
theorem passesDeadline_iff {s s' : State} :
    passesDeadline s s' = true ↔ ∃ d, s.timer = some d ∧ s.now ≤ d ∧ d < s'.now := by
  unfold passesDeadline
  cases s.timer <;> simp

/-- `T_CONV` is positive (R239). -/
theorem convTime_pos (p : Params) : 0 < p.convTime := (p.tConv.getD Config.tConv).pos

end Sys2Proof.Machine
end

