-- ==== Sys2Proof/Laws/PerInstr.lean ====
section
/-! SUPPORT. The family `RoundTrip`: for each instruction, decoding its encoding gives it back. The kernel finds
the first matching row of each concrete descriptor; where a field is left open it does so for each of its
values. -/

namespace Sys2Proof.Laws

set_option Elab.async false

/-- The round trip of one instruction (R102, R103). -/
def RoundTrip.Statement (i : Instr) : Prop := i.wellFormed = true → decode (encode i) = i

/-- The index of the first row that matches a descriptor. -/
def rowIndex (d : Descriptor) : Option Nat := opcodeTable.findIdx? (rowMatches d)

/-- The first matching row decides the decoding. -/
theorem decode_of_rowIndex {e : Event} {k : Nat} {r : Row} (h : rowIndex e.desc = some k)
    (hr : opcodeTable[k]? = some r) : decode e = r.build e := by
  have hf := List.findIdx?_eq_some_iff_getElem.1 h
  obtain ⟨hk, hm, hlt⟩ := hf
  have hrk : opcodeTable[k] = r := by simpa [hk] using hr
  have : opcodeTable.find? (rowMatches e.desc) = some r := by
    rw [List.find?_eq_some_iff_getElem]
    exact ⟨hrk ▸ hm, k, hk, hrk, fun j hj => by simpa using hlt j hj⟩
  simp [decode, this]

/-- A row whose mask is full is the first to match its own pattern. -/
theorem rowIndex_of_fullMask : ∀ k : Fin opcodeTable.length,
    opcodeTable[k].mask = 0xFFFF → rowIndex opcodeTable[k].pattern = some k.val := by
  decide +kernel

/-- An event whose descriptor is the pattern of a row with a full mask decodes by that row. -/
theorem decode_exact {e : Event} {k : Nat} {r : Row} (hr : opcodeTable[k]? = some r)
    (hm : r.mask = 0xFFFF) (hd : e.desc = r.pattern) : decode e = r.build e := by
  obtain ⟨hk, rfl⟩ := List.getElem?_eq_some_iff.1 hr
  exact decode_of_rowIndex (hd ▸ rowIndex_of_fullMask ⟨k, hk⟩ hm) hr

/-! Rows with an open field -/

/-- A row can match a descriptor with high byte `hi`. -/
def compatible (hi : Descriptor) (r : Row) : Bool := r.pattern &&& 0xFF00 == hi &&& (r.mask &&& 0xFF00)

/-- Every row before row `k` that can match high byte `hi` matches one descriptor only, of an excluded low byte. -/
def onlyExcludedBefore (k : Nat) (hi : Descriptor) (excluded : Offset → Bool) : Bool :=
  (opcodeTable.take k).all fun r =>
    !compatible hi r || (r.mask == 0xFFFF && excluded (lowByte r.pattern))

theorem compatible_of_matches {d hi : Descriptor} {r : Row} (hd : d &&& 0xFF00 = hi)
    (hm : rowMatches d r = true) : compatible hi r = true := by
  have : d &&& r.mask = r.pattern := by simpa [rowMatches] using hm
  simp [compatible, ← this, ← hd]
  ext i hi
  simp only [BitVec.getElem_and]
  cases d[i] <;> cases r.mask[i] <;> cases (0xFF00 : Descriptor)[i] <;> rfl

/-- A descriptor that an open row matches, and whose low byte is not excluded, decodes by that row. -/
theorem decode_open {e : Event} {k : Nat} {r : Row} {hi : Descriptor} (excluded : Offset → Bool)
    (hr : opcodeTable[k]? = some r) (hok : onlyExcludedBefore k hi excluded = true)
    (hd : e.desc &&& 0xFF00 = hi) (hm : rowMatches e.desc r = true)
    (hx : excluded (lowByte e.desc) = false) : decode e = r.build e := by
  obtain ⟨hk, rfl⟩ := List.getElem?_eq_some_iff.1 hr
  have : opcodeTable.find? (rowMatches e.desc) = some opcodeTable[k] := by
    rw [List.find?_eq_some_iff_getElem]
    refine ⟨hm, k, hk, rfl, fun j hj => ?_⟩
    by_contra hc
    have hc : rowMatches e.desc (opcodeTable[j]'(by omega)) = true := by simpa using hc
    have hall := List.all_eq_true.1 hok (opcodeTable[j]'(by omega))
      (List.mem_take_iff_getElem.2 ⟨j, by omega, rfl⟩)
    have hcomp := compatible_of_matches hd hc
    simp only [hcomp, Bool.not_true, Bool.false_or, Bool.and_eq_true, beq_iff_eq] at hall
    have hp : e.desc = (opcodeTable[j]'(by omega)).pattern := by
      have h := hc
      simp only [rowMatches, hall.1, beq_iff_eq] at h
      exact (BitVec.and_allOnes (x := e.desc)).symm.trans h
    rw [hp, hall.2] at hx
    exact Bool.noConfusion hx
  simp [decode, this]

theorem highByte_or (b : Descriptor) (hb : b &&& 0xFF00 = b) (off : BitVec 8) :
    (b ||| off.setWidth 16) &&& 0xFF00 = b := by
  have : (off.setWidth 16 : Descriptor) &&& 0xFF00 = 0 := by revert off; decide +kernel
  rw [BitVec.and_or_distrib_right, hb, this]
  simp

theorem rowMatches_of_highByte {d hi : Descriptor} {r : Row} (hd : d &&& 0xFF00 = hi)
    (hm : 0xFF00 &&& r.mask = r.mask) (hp : hi &&& r.mask = r.pattern) : rowMatches d r = true := by
  rw [rowMatches, beq_iff_eq, ← hp, ← hd, BitVec.and_assoc, hm]

theorem rowMatches_edge : ∀ (b : Bool) (line : BitVec 5),
    ((0x0800 ||| (if b then 0x0100 else 0x0000) ||| line.setWidth 16 : Descriptor) &&& 0xFEE0 == 0x0800) = true ∧
    (0x0800 ||| (if b then 0x0100 else 0x0000) ||| line.setWidth 16 : Descriptor) &&& 0xFF00 =
      0x0800 ||| (if b then 0x0100 else 0x0000) := by
  decide +kernel

/-! Fields that come back out of a descriptor -/

theorem lowByte_or (b : Descriptor) (hb : lowByte b = 0) (off : BitVec 8) :
    lowByte (b ||| off.setWidth 16) = off := by
  unfold lowByte at *
  rw [BitVec.extractLsb'_or, hb]
  ext i hi
  simp [hi]
  omega

theorem line_of_edge : ∀ (b : Bool) (line : BitVec 5),
    (0x0800 ||| (if b then 0x0100 else 0x0000) ||| line.setWidth 16 : Descriptor).extractLsb' 0 5 = line ∧
    (0x0800 ||| (if b then 0x0100 else 0x0000) ||| line.setWidth 16 : Descriptor).getLsbD 8 = b := by
  decide +kernel

theorem writeBit_or (b : Descriptor) {w : Bool} (hb : b.getLsbD 10 = w) (off : BitVec 8) :
    (b ||| off.setWidth 16).getLsbD 10 = w := by
  rw [BitVec.getLsbD_or, hb]
  simp

theorem setWidth_narrow {n : Nat} (h : n ≤ 32) (v : BitVec n) : (v.setWidth 32).setWidth n = v := by
  ext i hi
  simp [show i < 32 by omega, BitVec.getLsbD_eq_getElem hi]

/-- A descriptor outside the event classes matches no row but the last. -/
theorem opcodeTable_refines : ∀ r ∈ opcodeTable.take 80,
    ∃ c ∈ eventClasses, r.mask &&& c.1 = c.1 ∧ r.pattern &&& c.1 = c.2 := by
  decide +kernel

theorem decode_of_not_event {e : Event} (h : isEventDescriptor e.desc = false) :
    decode e = .otherDescriptor e.desc := by
  have hno : ∀ r ∈ opcodeTable.take 80, ¬ rowMatches e.desc r = true := by
    intro r hr hm
    obtain ⟨c, hc, h1, h2⟩ := opcodeTable_refines r hr
    have hm' : e.desc &&& r.mask = r.pattern := by simpa [rowMatches] using hm
    have : e.desc &&& c.1 = c.2 := by rw [← h1, ← BitVec.and_assoc, hm', h2]
    have : isEventDescriptor e.desc = true := List.any_eq_true.2 ⟨c, hc, by simpa using this⟩
    simp [this] at h
  have hs : opcodeTable = opcodeTable.take 80 ++ opcodeTable.drop 80 := (List.take_append_drop 80 _).symm
  have hl : opcodeTable.drop 80 = [⟨0x0000, 0x0000, fun e => .otherDescriptor e.desc⟩] := rfl
  unfold decode
  rw [hs, List.find?_append, List.find?_eq_none.2 hno, hl]
  simp [rowMatches]

/-! One lemma per constructor -/

namespace RoundTrip

theorem rd32Isr : Statement .rd32Isr := fun _ =>
  decode_exact (k := 0) rfl rfl rfl

theorem wr32Isr (v : Word) : Statement (.wr32Isr v) := fun _ =>
  decode_exact (k := 1) rfl rfl rfl

theorem rd32Ier : Statement .rd32Ier := fun _ =>
  decode_exact (k := 2) rfl rfl rfl

theorem wr32Ier (v : Word) : Statement (.wr32Ier v) := fun _ =>
  decode_exact (k := 3) rfl rfl rfl

theorem rd32Cr : Statement .rd32Cr := fun _ =>
  decode_exact (k := 4) rfl rfl rfl

theorem wr32Cr (v : Word) : Statement (.wr32Cr v) := fun _ =>
  decode_exact (k := 5) rfl rfl rfl

theorem rd32Cfgr : Statement .rd32Cfgr := fun _ =>
  decode_exact (k := 6) rfl rfl rfl

theorem wr32Cfgr (v : Word) : Statement (.wr32Cfgr v) := fun _ =>
  decode_exact (k := 7) rfl rfl rfl

theorem rd32Smpr1 : Statement .rd32Smpr1 := fun _ =>
  decode_exact (k := 8) rfl rfl rfl

theorem wr32Smpr1 (v : Word) : Statement (.wr32Smpr1 v) := fun _ =>
  decode_exact (k := 9) rfl rfl rfl

theorem rd32Smpr2 : Statement .rd32Smpr2 := fun _ =>
  decode_exact (k := 10) rfl rfl rfl

theorem wr32Smpr2 (v : Word) : Statement (.wr32Smpr2 v) := fun _ =>
  decode_exact (k := 11) rfl rfl rfl

theorem rd32Sqr1 : Statement .rd32Sqr1 := fun _ =>
  decode_exact (k := 12) rfl rfl rfl

theorem wr32Sqr1 (v : Word) : Statement (.wr32Sqr1 v) := fun _ =>
  decode_exact (k := 13) rfl rfl rfl

theorem rd32Sqr2 : Statement .rd32Sqr2 := fun _ =>
  decode_exact (k := 14) rfl rfl rfl

theorem wr32Sqr2 (v : Word) : Statement (.wr32Sqr2 v) := fun _ =>
  decode_exact (k := 15) rfl rfl rfl

theorem rd32Sqr3 : Statement .rd32Sqr3 := fun _ =>
  decode_exact (k := 16) rfl rfl rfl

theorem wr32Sqr3 (v : Word) : Statement (.wr32Sqr3 v) := fun _ =>
  decode_exact (k := 17) rfl rfl rfl

theorem rd32Sqr4 : Statement .rd32Sqr4 := fun _ =>
  decode_exact (k := 18) rfl rfl rfl

theorem wr32Sqr4 (v : Word) : Statement (.wr32Sqr4 v) := fun _ =>
  decode_exact (k := 19) rfl rfl rfl

theorem rd32Dr : Statement .rd32Dr := fun _ =>
  decode_exact (k := 20) rfl rfl rfl

theorem wr32Dr (v : Word) : Statement (.wr32Dr v) := fun _ =>
  decode_exact (k := 21) rfl rfl rfl

theorem rd16Dr : Statement .rd16Dr := fun _ =>
  decode_exact (k := 22) rfl rfl rfl

theorem rd8Dr : Statement .rd8Dr := fun _ =>
  decode_exact (k := 23) rfl rfl rfl

theorem rd16Narrow (off : Offset) : Statement (.rd16Narrow off) := fun h =>
  (decode_open (hi := 0x0100) (k := 24) (· == 0x40) rfl (by decide +kernel)
    (highByte_or 0x0100 rfl off) (rowMatches_of_highByte (highByte_or 0x0100 rfl off) rfl rfl) (by
      have hb := lowByte_or 0x0100 rfl off
      simp only [encode] at *
      rw [hb]
      simpa [Instr.wellFormed] using h)).trans
    (congrArg Instr.rd16Narrow (lowByte_or 0x0100 rfl off))

theorem rd8Narrow (off : Offset) : Statement (.rd8Narrow off) := fun h =>
  (decode_open (hi := 0x0000) (k := 25) (· == 0x40) rfl (by decide +kernel)
    (highByte_or 0x0000 rfl off) (rowMatches_of_highByte (highByte_or 0x0000 rfl off) rfl rfl) (by
      have hb := lowByte_or 0x0000 rfl off
      simp only [encode] at *
      rw [hb]
      simpa [Instr.wellFormed] using h)).trans
    (congrArg Instr.rd8Narrow (lowByte_or 0x0000 rfl off))

theorem wr16Narrow (off : Offset) (v : Half) : Statement (.wr16Narrow off v) := fun _ =>
  (decode_open (hi := 0x0500) (k := 26) (fun _ => false) rfl (by decide +kernel)
    (highByte_or 0x0500 rfl off) (rowMatches_of_highByte (highByte_or 0x0500 rfl off) rfl rfl) (rfl)).trans
    (congrArg₂ Instr.wr16Narrow (lowByte_or 0x0500 rfl off) (setWidth_narrow (by decide) v))

theorem wr8Narrow (off : Offset) (v : Byte) : Statement (.wr8Narrow off v) := fun _ =>
  (decode_open (hi := 0x0400) (k := 27) (fun _ => false) rfl (by decide +kernel)
    (highByte_or 0x0400 rfl off) (rowMatches_of_highByte (highByte_or 0x0400 rfl off) rfl rfl) (rfl)).trans
    (congrArg₂ Instr.wr8Narrow (lowByte_or 0x0400 rfl off) (setWidth_narrow (by decide) v))

theorem rd32Inert10 : Statement .rd32Inert10 := fun _ =>
  decode_exact (k := 28) rfl rfl rfl

theorem wr32Inert10 (v : Word) : Statement (.wr32Inert10 v) := fun _ =>
  decode_exact (k := 29) rfl rfl rfl

theorem rd32Inert1C : Statement .rd32Inert1C := fun _ =>
  decode_exact (k := 30) rfl rfl rfl

theorem wr32Inert1C (v : Word) : Statement (.wr32Inert1C v) := fun _ =>
  decode_exact (k := 31) rfl rfl rfl

theorem rd32Inert20 : Statement .rd32Inert20 := fun _ =>
  decode_exact (k := 32) rfl rfl rfl

theorem wr32Inert20 (v : Word) : Statement (.wr32Inert20 v) := fun _ =>
  decode_exact (k := 33) rfl rfl rfl

theorem rd32Inert24 : Statement .rd32Inert24 := fun _ =>
  decode_exact (k := 34) rfl rfl rfl

theorem wr32Inert24 (v : Word) : Statement (.wr32Inert24 v) := fun _ =>
  decode_exact (k := 35) rfl rfl rfl

theorem rd32Inert4C : Statement .rd32Inert4C := fun _ =>
  decode_exact (k := 36) rfl rfl rfl

theorem wr32Inert4C (v : Word) : Statement (.wr32Inert4C v) := fun _ =>
  decode_exact (k := 37) rfl rfl rfl

theorem rd32Inert60 : Statement .rd32Inert60 := fun _ =>
  decode_exact (k := 38) rfl rfl rfl

theorem wr32Inert60 (v : Word) : Statement (.wr32Inert60 v) := fun _ =>
  decode_exact (k := 39) rfl rfl rfl

theorem rd32Inert64 : Statement .rd32Inert64 := fun _ =>
  decode_exact (k := 40) rfl rfl rfl

theorem wr32Inert64 (v : Word) : Statement (.wr32Inert64 v) := fun _ =>
  decode_exact (k := 41) rfl rfl rfl

theorem rd32Inert68 : Statement .rd32Inert68 := fun _ =>
  decode_exact (k := 42) rfl rfl rfl

theorem wr32Inert68 (v : Word) : Statement (.wr32Inert68 v) := fun _ =>
  decode_exact (k := 43) rfl rfl rfl

theorem rd32Inert6C : Statement .rd32Inert6C := fun _ =>
  decode_exact (k := 44) rfl rfl rfl

theorem wr32Inert6C (v : Word) : Statement (.wr32Inert6C v) := fun _ =>
  decode_exact (k := 45) rfl rfl rfl

theorem rd32Inert80 : Statement .rd32Inert80 := fun _ =>
  decode_exact (k := 46) rfl rfl rfl

theorem wr32Inert80 (v : Word) : Statement (.wr32Inert80 v) := fun _ =>
  decode_exact (k := 47) rfl rfl rfl

theorem rd32Inert84 : Statement .rd32Inert84 := fun _ =>
  decode_exact (k := 48) rfl rfl rfl

theorem wr32Inert84 (v : Word) : Statement (.wr32Inert84 v) := fun _ =>
  decode_exact (k := 49) rfl rfl rfl

theorem rd32Inert88 : Statement .rd32Inert88 := fun _ =>
  decode_exact (k := 50) rfl rfl rfl

theorem wr32Inert88 (v : Word) : Statement (.wr32Inert88 v) := fun _ =>
  decode_exact (k := 51) rfl rfl rfl

theorem rd32Inert8C : Statement .rd32Inert8C := fun _ =>
  decode_exact (k := 52) rfl rfl rfl

theorem wr32Inert8C (v : Word) : Statement (.wr32Inert8C v) := fun _ =>
  decode_exact (k := 53) rfl rfl rfl

theorem rd32InertA0 : Statement .rd32InertA0 := fun _ =>
  decode_exact (k := 54) rfl rfl rfl

theorem wr32InertA0 (v : Word) : Statement (.wr32InertA0 v) := fun _ =>
  decode_exact (k := 55) rfl rfl rfl

theorem rd32InertA4 : Statement .rd32InertA4 := fun _ =>
  decode_exact (k := 56) rfl rfl rfl

theorem wr32InertA4 (v : Word) : Statement (.wr32InertA4 v) := fun _ =>
  decode_exact (k := 57) rfl rfl rfl

theorem rd32InertB0 : Statement .rd32InertB0 := fun _ =>
  decode_exact (k := 58) rfl rfl rfl

theorem wr32InertB0 (v : Word) : Statement (.wr32InertB0 v) := fun _ =>
  decode_exact (k := 59) rfl rfl rfl

theorem rd32InertB4 : Statement .rd32InertB4 := fun _ =>
  decode_exact (k := 60) rfl rfl rfl

theorem wr32InertB4 (v : Word) : Statement (.wr32InertB4 v) := fun _ =>
  decode_exact (k := 61) rfl rfl rfl

theorem rd32InertB8 : Statement .rd32InertB8 := fun _ =>
  decode_exact (k := 62) rfl rfl rfl

theorem wr32InertB8 (v : Word) : Statement (.wr32InertB8 v) := fun _ =>
  decode_exact (k := 63) rfl rfl rfl

theorem rd32InertBC : Statement .rd32InertBC := fun _ =>
  decode_exact (k := 64) rfl rfl rfl

theorem wr32InertBC (v : Word) : Statement (.wr32InertBC v) := fun _ =>
  decode_exact (k := 65) rfl rfl rfl

theorem rd32InertC0 : Statement .rd32InertC0 := fun _ =>
  decode_exact (k := 66) rfl rfl rfl

theorem wr32InertC0 (v : Word) : Statement (.wr32InertC0 v) := fun _ =>
  decode_exact (k := 67) rfl rfl rfl

theorem rd32InertC4 : Statement .rd32InertC4 := fun _ =>
  decode_exact (k := 68) rfl rfl rfl

theorem wr32InertC4 (v : Word) : Statement (.wr32InertC4 v) := fun _ =>
  decode_exact (k := 69) rfl rfl rfl

theorem rd32InertC8 : Statement .rd32InertC8 := fun _ =>
  decode_exact (k := 70) rfl rfl rfl

theorem wr32InertC8 (v : Word) : Statement (.wr32InertC8 v) := fun _ =>
  decode_exact (k := 71) rfl rfl rfl

theorem rd32Unmapped (off : Offset) : Statement (.rd32Unmapped off) := fun h =>
  (decode_open (hi := 0x0200) (k := 72) (!Config.unmapped ·) rfl (by decide +kernel)
    (highByte_or 0x0200 rfl off) (rowMatches_of_highByte (highByte_or 0x0200 rfl off) rfl rfl) (by
      have hb := lowByte_or 0x0200 rfl off
      simp only [encode] at *
      rw [hb]
      simpa [Instr.wellFormed] using h)).trans
    (congrArg Instr.rd32Unmapped (lowByte_or 0x0200 rfl off))

theorem wr32Unmapped (off : Offset) (v : Word) : Statement (.wr32Unmapped off v) := fun h =>
  (decode_open (hi := 0x0600) (k := 73) (!Config.unmapped ·) rfl (by decide +kernel)
    (highByte_or 0x0600 rfl off) (rowMatches_of_highByte (highByte_or 0x0600 rfl off) rfl rfl) (by
      have hb := lowByte_or 0x0600 rfl off
      simp only [encode] at *
      rw [hb]
      simpa [Instr.wellFormed] using h)).trans
    (congrArg (Instr.wr32Unmapped · v) (lowByte_or 0x0600 rfl off))

theorem busSizeCode3 (write : Bool) (off : Offset) : Statement (.busSizeCode3 write off) := by
  intro _
  cases write
  · exact (decode_open (e := encode (.busSizeCode3 false off)) (hi := 0x0300) (k := 74) (fun _ => false) rfl
      (by decide +kernel) (highByte_or 0x0300 rfl off)
      (rowMatches_of_highByte (highByte_or 0x0300 rfl off) rfl rfl) rfl).trans
      (congrArg₂ Instr.busSizeCode3 (writeBit_or 0x0300 rfl off) (lowByte_or 0x0300 rfl off))
  · exact (decode_open (e := encode (.busSizeCode3 true off)) (hi := 0x0700) (k := 74) (fun _ => false) rfl
      (by decide +kernel) (highByte_or 0x0700 rfl off)
      (rowMatches_of_highByte (highByte_or 0x0700 rfl off) rfl rfl) rfl).trans
      (congrArg₂ Instr.busSizeCode3 (writeBit_or 0x0700 rfl off) (lowByte_or 0x0700 rfl off))

theorem edge (line : BitVec 5) (level : Bool) : Statement (.edge line level) := fun _ =>
  (decode_open (e := encode (.edge line level)) (k := 75) (fun _ => false) rfl (by cases level <;> decide +kernel)
    (rowMatches_edge level line).2 (rowMatches_edge level line).1 rfl).trans
    (congrArg₂ Instr.edge (line_of_edge level line).1 (line_of_edge level line).2)

theorem expire : Statement .expire := fun _ =>
  decode_exact (k := 76) rfl rfl rfl

theorem feedv (ch : BitVec 8) (value : Word) (rep : Int) : Statement (.feedv ch value rep) := fun _ =>
  (decode_open (hi := 0x1800) (k := 77) (fun _ => false) rfl (by decide +kernel)
    (highByte_or 0x1800 rfl ch) (rowMatches_of_highByte (highByte_or 0x1800 rfl ch) rfl rfl) (rfl)).trans
    (congrArg (Instr.feedv · value rep) (lowByte_or 0x1800 rfl ch))

theorem feeds (ch : BitVec 8) (values : Option (List Word)) (rep : Int) : Statement (.feeds ch values rep) := fun _ =>
  (decode_open (hi := 0x2000) (k := 78) (fun _ => false) rfl (by decide +kernel)
    (highByte_or 0x2000 rfl ch) (rowMatches_of_highByte (highByte_or 0x2000 rfl ch) rfl rfl) (rfl)).trans
    (congrArg (Instr.feeds · values rep) (lowByte_or 0x2000 rfl ch))

theorem reset : Statement .reset := fun _ =>
  decode_exact (k := 79) rfl rfl rfl

theorem otherDescriptor (desc : Descriptor) : Statement (.otherDescriptor desc) := fun h =>
  decode_of_not_event (e := encode (.otherDescriptor desc)) (by simpa [Instr.wellFormed, encode] using h)

end RoundTrip

end Sys2Proof.Laws
end

