-- ==== Sys2Proof/Tests/Slice0.lean ====
section
/-! SUPPORT. Tests: ill-formed terms that the check refuses, words written out from R102 with the event they
are, single steps with the results spec/95_test_vectors.md gives, and for every obligation with hypotheses a
witness that meets them. -/

open Sys2Proof Sys2Proof.Machine

namespace Sys2Proof.Tests

set_option Elab.async false

/-! Small states -/

/-- What `f` reads in the next state, where there is one. -/
def after {α : Type} (r : Result) (f : State → α) : Option α :=
  match r with
  | .next t => some (f t)
  | _ => none

/-- The bound parameters with a conversion time of 5 ticks. -/
def five : Params := { Params.bound with tConv := some 5 }

/-- Channels 1 and 4 fed, the others not. -/
def channels : Vector Channel Config.maxCh :=
  (State.reset.chan.set 1 { fed := true, data := [0x11, 0x12], pos := 0, passesLeft := .finite 1 }).set 4
    { fed := true, data := [0x44], pos := 0, passesLeft := .forever }

/-- Disabled, sequence [1, 4]. -/
def ready : State :=
  { State.constructed five with
    seqLen := 2, l := 1, sq := (Vector.replicate 16 0 |>.set 0 1).set 1 4, chan := channels }

/-- Enabled, internal mode, nothing in flight. -/
def idle : State := { ready with enabled := true, adrdy := true, currentChannel := some 1 }

/-- A conversion of position 0 at its deadline, EOCIE set. -/
def armed : State :=
  { idle with scanActive := true, timer := some 7, now := 7, ier := 4 }

/-- The last position in flight, a length of 1 pending, DMA enabled. -/
def lastArmed : State :=
  { armed with cursor := 1, currentChannel := some 4, l := 0, lenDirty := true, dmngt := 1 }

/-- Continuous mode, position 0 in flight since the present time 7, three expiries to come. -/
def continuous : State :=
  { armed with
    cont := true, timer := some 12
    inbox := List.replicate 3 { elapsed := 5, event := { desc := 0x1000 } } }

/-- Falling-edge mode on line 5, DMA enabled, EOCIE set. -/
def external : State := { idle with exten := 2, extsel := 5, dmngt := 3, ier := 4 }

/-- External mode at position 1. -/
def externalMid : State := { external with cursor := 1, currentChannel := some 4 }

/-- External scan mode at position 1, a length of 1 pending. -/
def externalDirty : State := { externalMid with scanActive := true, l := 0, lenDirty := true }

/-- A block with all 32 channels and a slot that names the last. -/
def allChannels : State := { armed with params := { five with nCh := 32 }, sq := armed.sq.set 1 31 }

/-- A block with 20 trigger lines, no declared inert offset but 0x44, edges only after a start. -/
def other : State :=
  { external with params := { five with nTrig := 20, inertOffsets := [0x44], edgeRequiresStart := true } }

/-- Both edges, external, a last slot that names channel 20: no such channel. -/
def externalBad : State := { external with exten := 3, sq := external.sq.set 1 20 }

/-- At position 1 of 2: the drain selects positions 0 and 1, and the last slot names channel 20. -/
def externalLate : State := { externalMid with sq := externalMid.sq.set 1 20 }

/-- A length of 1 pending at position 2 of 3: the drain selects position 0 only, and slot 1 names no channel. -/
def externalSkip : State :=
  { externalDirty with seqLen := 3, cursor := 2, sq := externalDirty.sq.set 1 20 }

/-- Disabled, the first slot names channel 21: no such channel (program P5). -/
def badFirst : State := { ready with sq := ready.sq.set 0 21 }

/-- A conversion in flight whose successor's slot names channel 21 (program P6). -/
def badNext : State := { armed with sq := armed.sq.set 1 21 }

/-- A conversion of channel 1 in flight whose source is `ch`. -/
def feeding (ch : Channel) : State := { armed with chan := armed.chan.set 1 ch }

/-- A conversion in flight of channel 2, which was never fed. -/
def unfedNext : State := { armed with currentChannel := some 2 }

/-- Inert storage in every bit of the Status and Sequence registers that is no field. -/
def stored : State :=
  State.constructed { five with
    isrStorage := 0xFFFFFFF8, sqr1Storage := 0xE0820830, sqr2Storage := 0xE0820820
    sqr3Storage := 0xE0820820, sqr4Storage := 0xFFFFF820 }

/-- Unread result 0xDEADBEEF, flag and line set (vector V14). -/
def unread : State := { idle with latchedResult := 0xDEADBEEF, eoc := true, irq := true, ier := 4 }

/-- A block that a fault has ended. -/
def broken : State := recordFault (.channelOutOfRange 0 21) badFirst

/-! Well-formedness: one ill-formed term for each check -/

theorem test_illFormed_rd16Narrow : (Instr.rd16Narrow 0x40).wellFormed = false := by decide
theorem test_illFormed_rd8Narrow : (Instr.rd8Narrow 0x40).wellFormed = false := by decide
theorem test_illFormed_rd32Unmapped_register : (Instr.rd32Unmapped 0x00).wellFormed = false := by decide
theorem test_illFormed_rd32Unmapped_inert : (Instr.rd32Unmapped 0x10).wellFormed = false := by decide
theorem test_illFormed_wr32Unmapped_register : (Instr.wr32Unmapped 0x40 1).wellFormed = false := by decide
theorem test_illFormed_wr32Unmapped_inert : (Instr.wr32Unmapped 0xC8 1).wellFormed = false := by decide
theorem test_illFormed_otherDescriptor_bus :
    (Instr.otherDescriptor 0x0200).wellFormed = false := by decide
theorem test_illFormed_otherDescriptor_reset :
    (Instr.otherDescriptor 0x2800).wellFormed = false := by decide

/-! Decoding: each word is written out by R102, bit by bit for one instruction of each class -/

/-- Class 0, a word read at 0x40: pad 00, class 000, size 10 at bits 9:8, offset 01000000. -/
theorem test_decode_rd32Dr_bits : decode { desc := 0b00_000_0_10_01000000 } = .rd32Dr := by
  decide +kernel

/-- Class 0, a byte write at 0x08: write bit 10 set, size 00. -/
theorem test_decode_wr8Narrow_bits :
    decode { desc := 0b00_000_1_00_00001000, val := 0x1FF } = .wr8Narrow 0x08 0xFF := by decide +kernel

/-- Class 1, line 31, level 1 at bit 8. -/
theorem test_decode_edge_bits : decode { desc := 0b00_001_00_1_00011111 } = .edge 31 true := by
  decide +kernel

/-- Class 2. -/
theorem test_decode_expire_bits : decode { desc := 0b00_010_00000000000 } = .expire := by decide +kernel

/-- Classes 3 and 4, channel in the low byte. -/
theorem test_decode_feeds_bits :
    decode { desc := 0b00_011_000_00010100, val := 7, rep := -1 } = .feedv 20 7 (-1) ∧
    decode { desc := 0b00_100_000_00000111, values := none, rep := 2 } = .feeds 7 none 2 := by
  decide +kernel

/-- Class 5, and the same word with the reserved bit 0 set. -/
theorem test_decode_reset_bits :
    decode { desc := 0b00_101_00000000000 } = .reset ∧
    decode { desc := 0b00_101_00000000001 } = .otherDescriptor 0x2801 := by decide +kernel

/-- The words of V1 and V2: `T = 0x0200 + off` for a word read, `0x0600 + off` for a word write. -/
theorem test_decode_registers : ([
    (0x0200, .rd32Isr),
    (0x0600, .wr32Isr 0x12345678),
    (0x0204, .rd32Ier),
    (0x0604, .wr32Ier 0x12345678),
    (0x0208, .rd32Cr),
    (0x0608, .wr32Cr 0x12345678),
    (0x020C, .rd32Cfgr),
    (0x060C, .wr32Cfgr 0x12345678),
    (0x0214, .rd32Smpr1),
    (0x0614, .wr32Smpr1 0x12345678),
    (0x0218, .rd32Smpr2),
    (0x0618, .wr32Smpr2 0x12345678),
    (0x0230, .rd32Sqr1),
    (0x0630, .wr32Sqr1 0x12345678),
    (0x0234, .rd32Sqr2),
    (0x0634, .wr32Sqr2 0x12345678),
    (0x0238, .rd32Sqr3),
    (0x0638, .wr32Sqr3 0x12345678),
    (0x023C, .rd32Sqr4),
    (0x063C, .wr32Sqr4 0x12345678),
    (0x0240, .rd32Dr),
    (0x0640, .wr32Dr 0x12345678),
    (0x0140, .rd16Dr),
    (0x0040, .rd8Dr)] : List (Descriptor × Instr)).all (fun p => decode { desc := p.1, val := 0x12345678 } == p.2) = true := by
  decide +kernel

/-- The words of the declared inert offsets (R46, V9). -/
theorem test_decode_inert : ([
    (0x0210, .rd32Inert10),
    (0x0610, .wr32Inert10 0x12345678),
    (0x021C, .rd32Inert1C),
    (0x061C, .wr32Inert1C 0x12345678),
    (0x0220, .rd32Inert20),
    (0x0620, .wr32Inert20 0x12345678),
    (0x0224, .rd32Inert24),
    (0x0624, .wr32Inert24 0x12345678),
    (0x024C, .rd32Inert4C),
    (0x064C, .wr32Inert4C 0x12345678),
    (0x0260, .rd32Inert60),
    (0x0660, .wr32Inert60 0x12345678),
    (0x0264, .rd32Inert64),
    (0x0664, .wr32Inert64 0x12345678),
    (0x0268, .rd32Inert68),
    (0x0668, .wr32Inert68 0x12345678),
    (0x026C, .rd32Inert6C),
    (0x066C, .wr32Inert6C 0x12345678),
    (0x0280, .rd32Inert80),
    (0x0680, .wr32Inert80 0x12345678),
    (0x0284, .rd32Inert84),
    (0x0684, .wr32Inert84 0x12345678),
    (0x0288, .rd32Inert88),
    (0x0688, .wr32Inert88 0x12345678),
    (0x028C, .rd32Inert8C),
    (0x068C, .wr32Inert8C 0x12345678),
    (0x02A0, .rd32InertA0),
    (0x06A0, .wr32InertA0 0x12345678),
    (0x02A4, .rd32InertA4),
    (0x06A4, .wr32InertA4 0x12345678),
    (0x02B0, .rd32InertB0),
    (0x06B0, .wr32InertB0 0x12345678),
    (0x02B4, .rd32InertB4),
    (0x06B4, .wr32InertB4 0x12345678),
    (0x02B8, .rd32InertB8),
    (0x06B8, .wr32InertB8 0x12345678),
    (0x02BC, .rd32InertBC),
    (0x06BC, .wr32InertBC 0x12345678),
    (0x02C0, .rd32InertC0),
    (0x06C0, .wr32InertC0 0x12345678),
    (0x02C4, .rd32InertC4),
    (0x06C4, .wr32InertC4 0x12345678),
    (0x02C8, .rd32InertC8),
    (0x06C8, .wr32InertC8 0x12345678)] : List (Descriptor × Instr)).all (fun p => decode { desc := p.1, val := 0x12345678 } == p.2) = true := by
  decide +kernel

/-- Narrow and unmapped accesses (V7 to V13), edges (V30), feeds (V52), and the descriptors no agent can produce
(R122). -/
theorem test_decode_others : ([
    (0x0100, .rd16Narrow 0x00),
    (0x0110, .rd16Narrow 0x10),
    (0x0041, .rd8Narrow 0x41),
    (0x0044, .rd8Narrow 0x44),
    (0x0540, .wr16Narrow 0x40 0x5678),
    (0x0408, .wr8Narrow 0x08 0x78),
    (0x0244, .rd32Unmapped 0x44),
    (0x020A, .rd32Unmapped 0x0A),
    (0x0644, .wr32Unmapped 0x44 0x12345678),
    (0x0340, .busSizeCode3 false 0x40),
    (0x0740, .busSizeCode3 true 0x40),
    (0x0903, .edge 3 true),
    (0x0803, .edge 3 false),
    (0x1000, .expire),
    (0x1813, .feedv 19 0x12345678 1),
    (0x18FF, .feedv 255 0x12345678 1),
    (0x2007, .feeds 7 (some []) 1),
    (0x2800, .reset),
    (0x0820, .otherDescriptor 0x0820),
    (0x0A00, .otherDescriptor 0x0A00),
    (0x1001, .otherDescriptor 0x1001),
    (0x3000, .otherDescriptor 0x3000),
    (0x4000, .otherDescriptor 0x4000)] : List (Descriptor × Instr)).all (fun p => decode { desc := p.1, val := 0x12345678 } == p.2) = true := by
  decide +kernel

/-- R103 puts line 3 before lines 4 and 5, and line 2 before line 3. -/
theorem test_decodeTableWord :
    decodeTableWord 16 0x0140 = some .rd16Dr ∧ decodeTableWord 16 0x0600 = some (.wr32Isr 0) := by
  decide +kernel

/-- `SEQ [2, 5, 7]` of program P2 (R123). -/
theorem test_pseudoSeq_short : pseudoSeq [2, 5, 7] = [.wr32Sqr1 0x001C5082] := by decide +kernel

/-- Sixteen slots of 9: the words of V33, Sequence register 1 last. -/
theorem test_pseudoSeq_long : pseudoSeq (List.replicate 16 9) =
    [.wr32Sqr4 0x00000249, .wr32Sqr3 0x09249249, .wr32Sqr2 0x09249249, .wr32Sqr1 0x0924924F] := by
  decide +kernel

/-! Single steps, results from spec/95_test_vectors.md -/

/-- V2: the length field and the slots of a written word of ones. -/
theorem test_wr32Sqr1_ones :
    after (exec (.wr32Sqr1 0xFFFFFFFF) State.reset) (fun t => (t.l, t.seqLen, sqr1View t)) =
      some (15, 16, 0x1F7DF7CF) := by decide +kernel

/-- V3: positions of the slots of Sequence register 1. -/
theorem test_wr32Sqr1_fields :
    after (exec (.wr32Sqr1 0x001C5082) State.reset) (fun t => (t.l, t.sq[0], t.sq[1], t.sq[2], t.sq[3])) =
      some (2, 2, 5, 7, 0) := by decide +kernel

/-- P4, step 11: the cursor is 1, the length waits. -/
theorem test_wr32Sqr1_deferred :
    after (exec (.wr32Sqr1 0x00002040) { armed with cursor := 1, seqLen := 3 })
      (fun t => (t.l, t.seqLen, t.lenDirty)) = some (0, 3, true) := by decide +kernel

/-- V2: Sequence register 2. -/
theorem test_wr32Sqr2_ones :
    after (exec (.wr32Sqr2 0xFFFFFFFF) State.reset) (fun t => (sqr2View t, t.sq[3], t.sq[9])) =
      some (0x1F7DF7DF, 0, 0) := by decide +kernel

/-- V3: positions of the slots of Sequence register 3. -/
theorem test_wr32Sqr3_fields :
    after (exec (.wr32Sqr3 0x0A4C5083) State.reset)
      (fun t => (t.sq[9], t.sq[10], t.sq[11], t.sq[12], t.sq[13])) = some (3, 2, 5, 19, 10) := by
  decide +kernel

/-- V2: Sequence register 4. -/
theorem test_wr32Sqr4_ones :
    after (exec (.wr32Sqr4 0xFFFFFFFF) State.reset) (fun t => (sqr4View t, t.sq[13])) =
      some (0x000007DF, 0) := by decide +kernel

/-- R45: inert bits store what is written and read it back; a Status write of ones sets no flag. -/
theorem test_storage_masks :
    after (exec (.wr32Isr 0xFFFFFFFF) stored) isrView = some 0xFFFFFFF8 ∧
    after (exec (.wr32Sqr1 0xA5A5A5A5) stored) sqr1View = some 0xA5A5A5A5 ∧
    after (exec (.wr32Sqr4 0xFFFFFFFF) stored) sqr4View = some 0xFFFFFFFF := by decide +kernel

/-- V3: fields of the Configuration register. -/
theorem test_wr32Cfgr_fields :
    after (exec (.wr32Cfgr 0x000028A3) State.reset)
      (fun t => (t.dmngt, t.res, t.extsel, t.exten, t.cont)) = some (3, 0, 5, 2, true) := by
  decide +kernel

/-- V28: switching to an external mode disarms the timer. -/
theorem test_wr32Cfgr_disarms :
    after (exec (.wr32Cfgr 0x00000C01) armed) (fun t => (t.timer, t.out.timer, t.cursor)) =
      some (none, [.disarm], 0) := by decide +kernel

/-- V2: Interrupt-enable register. -/
theorem test_wr32Ier_ones :
    after (exec (.wr32Ier 0xFFFFFFFF) State.reset) (fun t => t.ier) = some 7 := by decide +kernel

/-- V2: Sample-timing registers. -/
theorem test_wr32Smpr_ones :
    after (exec (.wr32Smpr1 0xFFFFFFFF) State.reset) (fun t => t.smpr1) = some 0x3FFFFFFF ∧
    after (exec (.wr32Smpr2 0xFFFFFFFF) State.reset) (fun t => t.smpr2) = some 0x3FFFFFFF := by
  decide +kernel

/-- V4: write-1-to-clear, the line stays. -/
theorem test_wr32Isr_clears :
    after (exec (.wr32Isr 0x4) unread) (fun t => (t.adrdy, t.eoc, t.irq, t.out.lines)) =
      some (true, false, true, []) := by decide +kernel

/-- V6, first row. -/
theorem test_wr32Cr_enables :
    after (exec (.wr32Cr 0x1) ready) (fun t => (t.enabled, t.adrdy, t.currentChannel, t.timer)) =
      some (true, true, some 1, none) := by decide +kernel

/-- V6, row of 0x7 on an armed block: disable, then the start is refused. -/
theorem test_wr32Cr_all :
    after (exec (.wr32Cr 0x7) armed) (fun t => (t.enabled, t.cursor, t.out.timer, t.out.diags)) =
      some (false, 0, [.disarm], [.startWhileDisabled]) := by decide +kernel

/-- P4, step 15: the Status register after an unread completion. -/
theorem test_rd32Isr : after (exec .rd32Isr unread) (fun t => (t.out.readValue, t.irq)) =
    some (some (.word 0x5), true) := by decide +kernel

/-- V6, row of 0x80000301. -/
theorem test_rd32Cr : after (exec .rd32Cr { idle with crStore := 0x300 }) (fun t => t.out.readValue) =
    some (some (.word 0x301)) := by decide +kernel

/-- V3. -/
theorem test_rd32Cfgr :
    after (exec .rd32Cfgr { idle with dmngt := 3, extsel := 5, exten := 2, cont := true })
      (fun t => t.out.readValue) = some (some (.word 0x000028A3)) := by decide +kernel

/-- V14. -/
theorem test_rd32Dr : after (exec .rd32Dr unread) (fun t => (t.out, t.eoc, t.irq)) =
    some ({ Outputs.empty with readValue := some (.word 0xDEADBEEF), lines := [.irq false] }, false, false) := by
  decide +kernel

/-- V14. -/
theorem test_rd16Dr : after (exec .rd16Dr unread) (fun t => (t.out.readValue, t.latchedResult)) =
    some (some (.half 0xBEEF), 0xDEADBEEF) := by decide +kernel

/-- V14. -/
theorem test_rd8Dr : after (exec .rd8Dr unread) (fun t => (t.out.readValue, t.eoc)) =
    some (some (.byte 0xEF), false) := by decide +kernel

/-- V12: a byte read beside the Data register consumes nothing. -/
theorem test_rd8Narrow : after (exec (.rd8Narrow 0x41) unread) (fun t => (t.out.diags, t.eoc, t.irq)) =
    some ([.narrowAccess 0x41 1 .read], true, true) := by decide +kernel

/-- V11. -/
theorem test_wr8Narrow : after (exec (.wr8Narrow 0x08 0x02) idle) (fun t => (t.out.diags, t.enabled)) =
    some ([.narrowAccess 0x08 1 .write], true) := by decide +kernel

/-- V7. -/
theorem test_rd32Unmapped :
    after (exec (.rd32Unmapped 0x44) idle) (fun t => (t.out.readValue, t.out.diags)) =
      some (some (.word 0), [.unmappedRead 0x44]) := by decide +kernel

/-- V20: the first conversion of [1, 4], mid-scan. -/
theorem test_expire_midScan :
    after (exec .expire armed) (fun t =>
      (t.latchedResult, t.eoc, t.timer, t.out.timer)) =
      some (0x11, false, some 12, [.arm 5]) := by decide +kernel

/-- P4, step 14: the last conversion, the pending length, no re-arm; with DMA and the interrupt enabled. -/
theorem test_expire_last :
    after (exec .expire lastArmed) (fun t => (t.eoc, t.cursor, t.seqLen, t.timer, t.out.lines)) =
      some (true, 0, 1, none, [.dmaReq true, .dmaReq false, .irq true]) := by decide +kernel

/-- X5: a rising edge in falling-edge mode. -/
theorem test_edge_polarity : exec (.edge 5 true) external = .next external := rfl

/-- V34: a drain of [1, 4] without scan mode. -/
theorem test_edge_drains :
    after (exec (.edge 5 false) external) (fun t => (t.latchedResult, t.cursor, t.out.lines)) =
      some (0x44, 0, [.dmaReq true, .dmaReq false, .irq true, .dmaReq true, .dmaReq false]) := by
  decide +kernel

/-- R227: a drain from position 1 with a length of 1 pending: positions 1 and 0, the new length from the wrap on;
the interrupt comes with the last position. -/
theorem test_edge_wraps :
    after (exec (.edge 5 false) externalDirty) (fun t =>
      (t.latchedResult, t.cursor, t.seqLen, t.eoc, t.out.lines)) =
      some (0x11, 0, 1, true,
        [.dmaReq true, .dmaReq false, .irq true, .dmaReq true, .dmaReq false]) := by decide +kernel

/-- R221: lines 19 and 20 of a block with 20 lines. -/
theorem test_edge_lines :
    after (exec (.edge 19 false) other) (fun t => t.out.diags) = some [.unmatchedTriggerLine 19] ∧
    exec (.edge 20 false) other = .refused .notAnEvent := ⟨by decide +kernel, rfl⟩

/-- R46: an instance that declares 0x44 inert and 0x10 not. -/
theorem test_inert_of_instance :
    after (exec (.rd32Unmapped 0x44) other) (fun t => (t.out.readValue, t.out.diags)) =
      some (some (.word 0), []) ∧
    after (exec (.wr32Inert10 7) other) (fun t => t.out.diags) = some [.unmappedWrite 0x10] := by
  decide +kernel

/-- R238, R240: no expiry before its deadline, no delivery past it, any event at it. -/
theorem test_deadline :
    exec .expire { armed with now := 6 } = .refused .notAtDeadline ∧
    step { armed with inbox := [{ elapsed := 1, event := { desc := 0x0200 } }] } =
      .refused .deadlinePassed ∧
    after (step { armed with inbox := [{ elapsed := 0, event := { desc := 0x0200 } }] })
      (fun t => t.now) = some 7 := ⟨rfl, rfl, by decide +kernel⟩

/-- V52: the first check wins. -/
theorem test_feeds_errors :
    after (exec (.feeds 20 none 0) idle) (fun t => t.out.result) =
      some (some (.configError .channelOutOfRange)) ∧
    after (exec (.feeds 3 none 0) idle) (fun t => t.out.result) =
      some (some (.configError .parseError)) := by decide +kernel

/-- V52: the last channel and the one past it. -/
theorem test_feedv_range :
    after (exec (.feedv 19 7 1) idle) (fun t => t.out.result) = some (some .ok) ∧
    after (exec (.feedv 20 7 1) idle) (fun t => t.out.result) =
      some (some (.configError .channelOutOfRange)) := by decide +kernel

/-- V60: reset from a busy state. -/
theorem test_reset_busy :
    after (exec .reset { lastArmed with irq := true }) (fun t => (t.out.timer, t.out.lines, t.seqLen)) =
      some ([.disarm], [.irq false], 0) := by decide +kernel

/-- V60: the passes of a fed channel are cut to one, the position stays. -/
theorem test_reset_channel :
    resetChannel { fed := true, data := [1, 2, 3], pos := 1, passesLeft := .finite 3 } =
      { fed := true, data := [1, 2, 3], pos := 1, passesLeft := .finite 1 } := by decide

/-- P5 and P6: the block's one fault, at the enable and at the advance. -/
theorem test_faults :
    exec (.wr32Cr 0x1) badFirst = .fault (.channelOutOfRange 0 21) ∧
    exec .expire badNext = .fault (.channelOutOfRange 1 21) := ⟨rfl, rfl⟩

/-- A bare table word runs as the first instruction after reset. -/
theorem test_withFetchWord :
    after (step (State.reset.withFetchWord 16 0x0200)) (fun t => t.out.readValue) =
      some (some (.word 0)) := by decide +kernel

/-! Witnesses: states and operands that meet an obligation's hypotheses -/

theorem legal_five : five.Legal := by
  constructor <;> decide +kernel

theorem legal_stored : stored.params.Legal := by
  constructor <;> decide +kernel

theorem legal_allChannels : allChannels.params.Legal := by
  constructor <;> decide +kernel

theorem inv_ready : ready.Inv := by
  constructor <;> first | exact legal_five | decide +kernel

theorem inv_idle : idle.Inv := by
  constructor <;> first | exact legal_five | decide +kernel

theorem inv_armed : armed.Inv := by
  constructor <;> first | exact legal_five | decide +kernel

theorem inv_lastArmed : lastArmed.Inv := by
  constructor <;> first | exact legal_five | decide +kernel

theorem inv_continuous : continuous.Inv := by
  constructor <;> first | exact legal_five | decide +kernel

theorem inv_external : external.Inv := by
  constructor <;> first | exact legal_five | decide +kernel

theorem inv_externalMid : externalMid.Inv := by
  constructor <;> first | exact legal_five | decide +kernel

theorem inv_externalDirty : externalDirty.Inv := by
  constructor <;> first | exact legal_five | decide +kernel

theorem inv_allChannels : allChannels.Inv := by
  constructor <;> first | exact legal_allChannels | decide +kernel

theorem inv_externalBad : externalBad.Inv := by
  constructor <;> first | exact legal_five | decide +kernel

theorem inv_externalLate : externalLate.Inv := by
  constructor <;> first | exact legal_five | decide +kernel

theorem inv_externalSkip : externalSkip.Inv := by
  constructor <;> first | exact legal_five | decide +kernel

theorem inv_unfedNext : unfedNext.Inv := by
  constructor <;> first | exact legal_five | decide +kernel

theorem inv_badFirst : badFirst.Inv := by
  constructor <;> first | exact legal_five | decide +kernel

theorem inv_badNext : badNext.Inv := by
  constructor <;> first | exact legal_five | decide +kernel

theorem slots_armed : armed.SlotsNamed := by
  unfold State.SlotsNamed; decide +kernel

theorem slots_continuous : continuous.SlotsNamed := by
  unfold State.SlotsNamed; decide +kernel

theorem slots_external : external.SlotsNamed := by
  unfold State.SlotsNamed; decide +kernel

theorem slots_externalMid : externalMid.SlotsNamed := by
  unfold State.SlotsNamed; decide +kernel

theorem slots_externalDirty : externalDirty.SlotsNamed := by
  unfold State.SlotsNamed; decide +kernel

/-- `armed` 5 ticks before its deadline, with its expiry as the next delivery. -/
def delivered : State :=
  { armed with now := 2, inbox := [{ elapsed := 5, event := { desc := 0x1000 } }] }

theorem inv_delivered : delivered.Inv := by
  constructor <;> first | exact legal_five | decide +kernel

theorem witness_DecodeEncodeAgree :
    (Instr.rd32Unmapped 0xFF).wellFormed = true ∧ (Instr.rd8Narrow 0x41).wellFormed = true ∧
    (Instr.otherDescriptor 0xFFFF).wellFormed = true := by decide

/-- Both kinds of refused descriptor, and each clause of the second at a boundary value. -/
theorem witness_RefusedDescriptorsAreThoseOfNoAgent :
    decode { desc := 0x07FF } = .busSizeCode3 true 0xFF ∧
    ([0x4000, 0x3000, 0x3800, 0x0820, 0x0A00, 0x1001, 0x1900, 0x2100, 0x2801] : List Descriptor).all
      (fun d => decode { desc := d } == .otherDescriptor d) = true := by decide +kernel

theorem witness_StepRunsDeliveredEvent :
    (∃ d rest, delivered.inbox = d :: rest ∧ decode d.event = .expire ∧
      Instr.expire.wellFormed = true ∧ delivered.timer = some 7 ∧ delivered.now + d.elapsed = 7) ∧
    State.reset.inbox = [] :=
  ⟨⟨_, _, rfl, by decide +kernel, rfl, rfl, rfl⟩, rfl⟩

/-- The three clauses, the late delivery one tick past the deadline. -/
theorem witness_TimedModel :
    (∃ t, step delivered = .next t ∧ t.now = 7) ∧ (∃ t, exec .expire armed = .next t ∧ t.cursor = 1) ∧
    step { delivered with inbox := [{ elapsed := 6, event := { desc := 0x1000 } }] } =
      .refused .deadlinePassed := ⟨⟨_, rfl, rfl⟩, ⟨_, rfl, rfl⟩, rfl⟩

theorem witness_ParametersNeverChange : ∃ t, step delivered = .next t ∧ t.params = five :=
  ⟨_, rfl, rfl⟩

/-- The first line the block lacks. -/
theorem witness_RefusedDescriptorsAreRefused :
    other.faulted = none ∧ other.params.nTrig.val ≤ (20 : BitVec 5).toNat := by decide

theorem witness_ConstructionHasInvariant : five.Legal := legal_five

theorem witness_FaultedBlockRefusesEveryEvent : broken.faulted ≠ none := by decide +kernel

theorem witness_ResetEvent : lastArmed.faulted = none := rfl

theorem witness_StepKeepsInvariant : delivered.Inv ∧ ∃ t, step delivered = .next t ∧ t.eoc = false :=
  ⟨inv_delivered, _, rfl, rfl⟩

theorem witness_StepKeepsUnfaulted : ∃ t, exec .expire armed = .next t ∧ t.cursor = 1 :=
  ⟨_, rfl, rfl⟩

/-- Each of the three events that can fault. -/
theorem witness_OnlySelectFaults :
    (badFirst.Inv ∧ exec (.wr32Cr 1) badFirst = .fault (.channelOutOfRange 0 21)) ∧
    (badNext.Inv ∧ exec .expire badNext = .fault (.channelOutOfRange 1 21)) ∧
    (externalBad.Inv ∧ exec (.edge 5 true) externalBad = .fault (.channelOutOfRange 1 20)) :=
  ⟨⟨inv_badFirst, rfl⟩, ⟨inv_badNext, rfl⟩, inv_externalBad, rfl⟩

theorem witness_NamedSlotsNeverFault : armed.Inv ∧ armed.SlotsNamed := ⟨inv_armed, slots_armed⟩

theorem witness_NoFaultWithAllChannels : allChannels.Inv ∧ allChannels.params.nCh.val = 32 :=
  ⟨inv_allChannels, rfl⟩

theorem witness_StatusRead : stored.params.Legal ∧ stored.faulted = none := ⟨legal_stored, rfl⟩

theorem witness_ControlRead : idle.params.Legal ∧ idle.faulted = none := ⟨legal_five, rfl⟩

theorem witness_ConfigurationRead : external.params.Legal ∧ external.faulted = none := ⟨legal_five, rfl⟩

theorem witness_StorageReads : armed.faulted = none := rfl

theorem witness_SequenceReads : stored.params.Legal ∧ stored.faulted = none := ⟨legal_stored, rfl⟩

theorem witness_ReadBackAfterWrite : ready.params.Legal ∧ ready.faulted = none := ⟨legal_five, rfl⟩

theorem witness_PlainReadsChangeNothing :
    Instr.rd32Isr.isPlainRead = true ∧ (Instr.rd8Narrow 0x41).isPlainRead = true ∧
    Instr.rd32InertC8.isPlainRead = true ∧ unread.faulted = none := by decide

theorem witness_DataRegisterReadsConsume : unread.faulted = none := rfl

theorem witness_StatusWrite : unread.faulted = none := rfl

theorem witness_StorageWrites : unread.faulted = none := rfl

theorem witness_DataRegisterWritesIgnored : unread.faulted = none := rfl

/-- Both clauses: an offset with rows of its own under the bound set, and another one an instance declares. -/
theorem witness_DeclaredInertAccesses :
    ((0x10 : Offset) ∈ idle.params.inertOffsets ∧ (0xC8 : Offset) ∈ idle.params.inertOffsets ∧
      idle.faulted = none) ∧ (0x44 : Offset) ∈ other.params.inertOffsets ∧ other.faulted = none := by
  decide

/-- The clauses: an offset that is no multiple of 4 in a legal record, one outside the bound set, one outside an
instance's. -/
theorem witness_UnmappedWordAccesses :
    (five.Legal ∧ (0x01 : Offset).toNat % 4 ≠ 0 ∧ (0xFF : Offset).toNat % 4 ≠ 0) ∧
    ((0x44 : Offset) ∉ Config.registerOffsets ∧ (0x44 : Offset) ∉ Params.bound.inertOffsets) ∧
    (0x10 : Offset) ∉ Config.registerOffsets ∧ (0x10 : Offset) ∉ other.params.inertOffsets ∧
    (0xFF : Offset) ∉ idle.params.inertOffsets ∧ other.faulted = none :=
  ⟨⟨legal_five, by decide⟩, by decide⟩

theorem witness_NarrowAccessesHaveNoEffect :
    (0x41 : Offset) ≠ 0x40 ∧ (0x3F : Offset) ≠ 0x40 ∧ unread.faulted = none := by decide

/-- Both clauses: the cursor at 0 and away from it. -/
theorem witness_SequenceLengthWrite :
    (ready.faulted = none ∧ ready.cursor = 0) ∧ (lastArmed.faulted = none ∧ lastArmed.cursor ≠ 0) := by
  decide

theorem witness_SequenceSlotWrites : ready.faulted = none := rfl

/-- An external mode entered, the internal mode entered in scan mode with the timer disarmed, and kept. -/
theorem witness_ConfigurationWrite :
    (armed.faulted = none ∧ (0x00000C01 : Word).extractLsb' 10 2 ≠ 0) ∧
    ({ external with scanActive := true } : State).faulted = none ∧ (0 : Word).extractLsb' 10 2 = 0 ∧
    armed.exten = 0 := by decide

theorem witness_ControlWriteWithoutCommands :
    armed.faulted = none ∧ (0x80000300 : Word).getLsbD 0 = false ∧ (0x80000300 : Word).getLsbD 1 = false ∧
    (0x80000300 : Word).getLsbD 2 = false := by decide

theorem witness_CalibrationBitDoesNothing :
    ready.params.Legal ∧ ∃ t, exec (.wr32Cr 0x1) ready = .next t ∧ t.enabled = true :=
  ⟨legal_five, _, rfl, rfl⟩

/-- The four clauses: a slot past the channels (here with the disable and the start bit set too), already
enabled, empty sequence, a slot that names a channel. -/
theorem witness_EnableWrite :
    exec (.wr32Cr 0x7) badFirst = .fault (.channelOutOfRange 0 21) ∧
    ((0x1 : Word).getLsbD 0 = true ∧ (0x1 : Word).getLsbD 1 = false ∧ (0x1 : Word).getLsbD 2 = false) ∧
    (idle.faulted = none ∧ idle.enabled = true) ∧
    (State.reset.enabled = false ∧ State.reset.seqLen = 0) ∧
    (badFirst.enabled = false ∧ badFirst.seqLen ≠ 0 ∧ badFirst.params.nCh.val ≤ (badFirst.sq[0]).toNat) ∧
    (ready.enabled = false ∧ ready.seqLen ≠ 0 ∧ (ready.sq[0]).toNat < ready.params.nCh.val) :=
  ⟨rfl, by decide +kernel⟩

theorem witness_DisableWrite :
    ((0x2 : Word).getLsbD 0 = false ∧ (0x2 : Word).getLsbD 1 = true ∧ (0x2 : Word).getLsbD 2 = false) ∧
    (ready.faulted = none ∧ ready.enabled = false) ∧
    (lastArmed.faulted = none ∧ lastArmed.enabled = true) := by decide

/-- The three clauses; the second on both its sides. -/
theorem witness_StartWrite :
    ((0x4 : Word).getLsbD 0 = false ∧ (0x4 : Word).getLsbD 1 = false ∧ (0x4 : Word).getLsbD 2 = true) ∧
    (ready.faulted = none ∧ ready.enabled = false) ∧
    (external.enabled = true ∧ external.exten ≠ 0) ∧ (armed.enabled = true ∧ armed.timer.isSome = true) ∧
    (idle.enabled = true ∧ idle.exten = 0 ∧ idle.timer = none) := by decide

theorem witness_ControlCommandsInBitOrder :
    armed.params.Legal ∧ ∃ t, exec (.wr32Cr 0x7) armed = .next t ∧ t.enabled = false :=
  ⟨legal_five, _, rfl, rfl⟩

theorem witness_ControlWriteCompletes :
    ready.faulted = none ∧ (0x5 : Word).getLsbD 0 = true ∧ ready.enabled = false ∧ ready.seqLen ≠ 0 ∧
    (ready.sq[0]).toNat < ready.params.nCh.val := by decide +kernel

theorem witness_EdgeIgnoredInInternalMode :
    armed.faulted = none ∧ (31 : BitVec 5).toNat < armed.params.nTrig.val ∧ armed.exten = 0 := by decide

/-- The four clauses: another line, the wrong polarity in each single-edge mode, a disabled block, and a block that
waits for a start. -/
theorem witness_EdgeDropped :
    (external.faulted = none ∧ external.exten ≠ 0) ∧ (4 : BitVec 5) ≠ external.extsel ∧
    (5 : BitVec 5) = external.extsel ∧ (external.exten = 2 ∧ ({ external with exten := 1 } : State).exten = 1) ∧
    ({ ready with exten := 3 } : State).enabled = false ∧
    ((5 : BitVec 5).toNat < other.params.nTrig.val ∧ other.params.edgeRequiresStart = true ∧
      other.scanActive = false ∧ (5 : BitVec 5) = other.extsel) := by decide

/-- At position 0 in falling-edge mode; at position 1 in scan mode with a length pending; and with a slot that names
no channel where the drain selects none. -/
theorem witness_QualifyingEdgeDrains :
    (external.Inv ∧ external.faulted = none ∧ external.enabled = true ∧
      external.currentChannel = some 1 ∧ (5 : BitVec 5).toNat < external.params.nTrig.val ∧
      5 = external.extsel ∧ external.exten = 2 ∧ external.params.edgeRequiresStart = false) ∧
    (externalDirty.Inv ∧ externalDirty.faulted = none ∧
      externalDirty.enabled = true ∧ externalDirty.currentChannel = some 4 ∧
      5 = externalDirty.extsel ∧ externalDirty.exten = 2 ∧ externalDirty.scanActive = true ∧
      externalDirty.lenDirty = true ∧ externalDirty.cursor = 1) ∧
    (externalSkip.Inv ∧ externalSkip.enabled = true ∧ externalSkip.currentChannel = some 4) ∧
    ∀ s ∈ [external, externalDirty, externalSkip],
      ∀ p ∈ drainSelections s, s.sq[p].toNat < s.params.nCh.val :=
  ⟨⟨inv_external, by decide⟩, ⟨inv_externalDirty, by decide⟩, ⟨inv_externalSkip, by decide⟩, by decide +kernel⟩

/-- The first of two selected positions, and the last of two. -/
theorem witness_DrainFaultsAtFirstUnnamedSlot :
    (externalBad.Inv ∧ externalBad.faulted = none ∧ externalBad.enabled = true ∧ externalBad.exten = 3 ∧
      (5 : BitVec 5).toNat < externalBad.params.nTrig.val ∧ 5 = externalBad.extsel ∧
      externalBad.params.edgeRequiresStart = false) ∧
    (drainSelections externalBad = [] ++ 1 :: [0] ∧
      externalBad.params.nCh.val ≤ (externalBad.sq[1]).toNat) ∧
    (externalLate.Inv ∧ externalLate.faulted = none ∧ externalLate.enabled = true ∧
      externalLate.exten = 2 ∧ 5 = externalLate.extsel) ∧
    (drainSelections externalLate = [0] ++ 1 :: [] ∧
      (externalLate.sq[0]).toNat < externalLate.params.nCh.val ∧
      externalLate.params.nCh.val ≤ (externalLate.sq[1]).toNat) :=
  ⟨⟨inv_externalBad, by decide⟩, by decide +kernel, ⟨inv_externalLate, by decide⟩, by decide +kernel⟩

/-- The last position of the sequence is a boundary of the premise on the slots. -/
theorem witness_DrainFromPositionZero :
    (external.Inv ∧ external.faulted = none ∧ external.enabled = true ∧
      external.cursor = 0 ∧ external.lenDirty = false ∧ external.currentChannel = some 1) ∧
    (∀ p : Fin 16, p.val < external.seqLen.val → (external.sq[p]).toNat < external.params.nCh.val) ∧
    (5 : BitVec 5).toNat < external.params.nTrig.val ∧ 5 = external.extsel ∧ external.exten = 2 ∧
    external.params.edgeRequiresStart = false :=
  ⟨⟨inv_external, by decide⟩, by decide +kernel, by decide⟩

/-- Both clauses, the second one tick before the deadline. -/
theorem witness_ExpireNeedsArmedTimer :
    (idle.faulted = none ∧ idle.timer = none) ∧
    ({ armed with now := 6 } : State).timer = some 7 ∧ (6 : Nat) ≠ 7 := by decide

/-- In the middle of a scan; at the last position, where the next position is 0; and where the next slot names no
channel. -/
theorem witness_ExpireCompletesOneConversion :
    (armed.Inv ∧ armed.faulted = none ∧ armed.timer = some armed.now ∧
      armed.currentChannel = some 1 ∧
      (1 : Fin 16).val = (if armed.cursor.val + 1 = armed.seqLen.val then 0 else armed.cursor.val + 1) ∧
      (armed.sq[1]).toNat < armed.params.nCh.val) ∧
    (lastArmed.Inv ∧ lastArmed.faulted = none ∧ lastArmed.timer = some lastArmed.now ∧
      lastArmed.currentChannel = some 4 ∧
      (0 : Fin 16).val =
        (if lastArmed.cursor.val + 1 = lastArmed.seqLen.val then 0 else lastArmed.cursor.val + 1) ∧
      (lastArmed.sq[0]).toNat < lastArmed.params.nCh.val) ∧
    (badNext.Inv ∧ badNext.faulted = none ∧ badNext.timer = some badNext.now ∧
      badNext.currentChannel = some 1 ∧
      (1 : Fin 16).val =
        (if badNext.cursor.val + 1 = badNext.seqLen.val then 0 else badNext.cursor.val + 1) ∧
      badNext.params.nCh.val ≤ (badNext.sq[1]).toNat) :=
  ⟨⟨inv_armed, by decide +kernel⟩, ⟨inv_lastArmed, by decide +kernel⟩, inv_badNext, by decide +kernel⟩

/-- The clauses on the converted channel: unfed; a sample before the last; the last, on an endless pass, on the
last but one and on the last. -/
theorem witness_ExpireCompletesOneConversion_channel :
    (unfedNext.Inv ∧ unfedNext.currentChannel = some 2 ∧ (unfedNext.chan[2]).fed = false) ∧
    ((armed.chan[1]).fed = true ∧ (armed.chan[1]).pos + 1 < (armed.chan[1]).data.length) ∧
    ((lastArmed.chan[4]).fed = true ∧ (lastArmed.chan[4]).pos + 1 = (lastArmed.chan[4]).data.length ∧
      (lastArmed.chan[4]).passesLeft = .forever) ∧
    (feeding { fed := true, data := [7], pos := 0, passesLeft := .finite (0 + 2) }).Inv ∧
    (feeding { fed := true, data := [7], pos := 0, passesLeft := .finite 1 }).Inv := by
  refine ⟨⟨inv_unfedNext, by decide +kernel⟩, by decide +kernel, by decide +kernel, ?_, ?_⟩ <;>
    constructor <;> first | exact legal_five | decide +kernel

theorem witness_ContinuousRunCycles :
    continuous.Inv ∧ continuous.SlotsNamed ∧ continuous.faulted = none ∧ continuous.cont = true ∧
    continuous.cursor = 0 ∧ continuous.lenDirty = false ∧
    continuous.timer = some (continuous.now + continuous.params.convTime) ∧
    continuous.currentChannel.map (·.val) = some (continuous.sq[0]).toNat ∧
    continuous.inbox = List.replicate 3
      { elapsed := continuous.params.convTime, event := { desc := 0x1000 } } ++ [] :=
  ⟨inv_continuous, slots_continuous, by decide +kernel⟩

/-- The three clauses, the channel at both sides of the bound. -/
theorem witness_FeedValue :
    idle.faulted = none ∧ idle.params.nCh.val ≤ (20 : BitVec 8).toNat ∧ (19 : BitVec 8).toNat < idle.params.nCh.val ∧
    (1 : Int) ≠ 0 := by decide

/-- The five clauses. -/
theorem witness_FeedSequence :
    idle.faulted = none ∧ idle.params.nCh.val ≤ (20 : BitVec 8).toNat ∧ (19 : BitVec 8).toNat < idle.params.nCh.val ∧
    (-1 : Int) ≠ 0 ∧ ([1, 2] : List Word) ≠ [] := by decide

theorem witness_PopsAfterFeed :
    idle.faulted = none ∧ (19 : Fin Config.maxCh).val < idle.params.nCh.val ∧ (2 : Int) ≠ 0 ∧ (-1 : Int) ≠ 0 ∧ ([1, 2] : List Word) ≠ [] := by decide

theorem witness_LatchedResultOnlyByCompletionOrReset :
    ∃ t, exec .expire armed = .next t ∧ t.latchedResult ≠ armed.latchedResult :=
  ⟨_, rfl, by decide +kernel⟩

theorem witness_InterruptRisesOnlyInCompletion :
    ∃ t, exec .expire lastArmed = .next t ∧ lastArmed.irq = false ∧ t.irq = true :=
  ⟨_, rfl, rfl, by decide +kernel⟩

/-- Both clauses. -/
theorem witness_InterruptFallsOnlyOnDataReadOrReset :
    (∃ t, exec .rd8Dr unread = .next t ∧ unread.irq = true ∧ t.irq = false) ∧ unread.faulted = none :=
  ⟨⟨_, rfl, rfl, rfl⟩, rfl⟩

theorem witness_CursorWrittenOnlyByThree :
    ∃ t, exec (.wr32Cr 0x2) lastArmed = .next t ∧ t.cursor ≠ lastArmed.cursor :=
  ⟨_, rfl, by decide +kernel⟩

theorem witness_TimerChangesOnlyWhereListed :
    armed.Inv ∧ ∃ t, exec (.wr32Cfgr 0x00000C01) armed = .next t ∧ t.timer ≠ armed.timer :=
  ⟨inv_armed, _, rfl, by decide +kernel⟩

/-- Both clauses: a channel that changes, and an accepted feed of the last channel. -/
theorem witness_ChannelsOutOfReachOfTheBus :
    (∃ t, exec .expire armed = .next t ∧ t.chan ≠ armed.chan) ∧
    ∃ t, exec (.feedv 19 7 1) armed = .next t ∧ t.out.result = some .ok :=
  ⟨⟨_, rfl, by decide +kernel⟩, _, rfl, by decide +kernel⟩

theorem witness_SampleStoreInvisibleToBus :
    Instr.rd32Dr ≠ .expire ∧ Instr.rd32Dr ≠ .reset ∧ (∀ line level, Instr.rd32Dr ≠ .edge line level) ∧
    (∀ c v r, Instr.rd32Dr ≠ .feedv c v r) ∧ ∀ c vs r, Instr.rd32Dr ≠ .feeds c vs r := by
  simp

end Sys2Proof.Tests
end

section
/-! PROOFS. What a step does with an empty inbox and with a delivery in time (R9, R10, R79, R240). -/

namespace Sys2Proof.Proofs.Scope
open Sys2Proof Sys2Proof.Machine

/-- A delivery is in time when it leaves the clock at or before the deadline of a timer still to expire
(R240). -/
theorem passesDeadline_eq_false_iff {s s' : State} :
    passesDeadline s s' = false ↔
      ∀ deadline, s.timer = some deadline → s.now ≤ deadline → s'.now ≤ deadline := by
  simp [Bool.eq_false_iff, passesDeadline_iff]

/-- A delivery in time is processed, decoded, in the state without it and at the time it carries. -/
theorem step_of_inTime {s : State} {d : Delivery} {rest : List Delivery} (hin : s.inbox = d :: rest)
    (htime : ∀ deadline, s.timer = some deadline → s.now ≤ deadline → s.now + d.elapsed ≤ deadline) :
    step s = exec (decode d.event) { s with inbox := rest, now := s.now + d.elapsed } := by
  have hpass : passesDeadline s { s with inbox := rest, now := s.now + d.elapsed } = false :=
    passesDeadline_eq_false_iff.2 htime
  simp [step_of_inbox_cons hin, hpass]

/-- Settles O5: `step_of_inTime` for a delivery, `step_of_inbox_nil` for none. -/
theorem stepRunsDeliveredEvent : Obligations.StepRunsDeliveredEvent := by
  unfold Obligations.StepRunsDeliveredEvent
  constructor
  · rintro s d rest i hin rfl - htime
    exact step_of_inTime hin htime
  · exact fun s hin => step_of_inbox_nil hin

end Sys2Proof.Proofs.Scope
end

section
/-! PROOFS. The record of parameters R7 binds: its two tables by code, and that it is legal. -/

namespace Sys2Proof.Proofs.Scope
open Sys2Proof Sys2Proof.Machine

@[simp] theorem reset_params : State.reset.params = Params.bound := rfl

/-- The bound `DMA_EN_OF` (R7, R117). -/
theorem bound_dmaEnables_iff (d : BitVec 2) : Params.bound.dmaEnables d = true ↔ d = 1 ∨ d = 3 := by
  revert d
  decide

/-- The bound `RES_MASK` cuts no bit off at any resolution (R7, R118). -/
theorem bound_resolutionMask (r : BitVec 3) : Params.bound.resolutionMask r = 0xFFFFFFFF := by
  simp [Params.resolutionMask, Params.bound]

/-- No offset R46 declares inert is a register's, and each is a word slot (R21, R46). -/
theorem declaredInert_unnamed_slot :
    ∀ off ∈ Config.declaredInertOffsets, off ∉ Config.registerOffsets ∧ off.toNat % 4 = 0 := by
  decide

/-- The values R7 binds meet R7, R21, R45 and R46. -/
theorem bound_legal : Params.bound.Legal where
  some_channel := by decide
  some_line := by decide
  base_aligned := by simp [Params.bound]
  w1c_flags := rfl
  dma_off := rfl
  isr_inert := rfl
  ier_inert := rfl
  cr_inert := rfl
  cfgr_inert := rfl
  sqr1_inert := rfl
  sqr2_inert := rfl
  sqr3_inert := rfl
  sqr4_inert := rfl
  dr_inert := rfl
  inert_unnamed off hoff := (declaredInert_unnamed_slot off hoff).1
  inert_slots off hoff := (declaredInert_unnamed_slot off hoff).2

/-- Settles O7: the fields are those of `Params.bound`, the two tables and the legality have lemmas. -/
theorem boundParameters : Obligations.BoundParameters := by
  unfold Obligations.BoundParameters
  rw [reset_params]
  exact ⟨rfl, rfl, rfl, rfl, rfl, rfl, rfl, bound_dmaEnables_iff, bound_resolutionMask, rfl, rfl, rfl, rfl,
    rfl, rfl, rfl, rfl, rfl, rfl, rfl, rfl, rfl, rfl, bound_legal⟩

end Sys2Proof.Proofs.Scope
end

section
/-! PROOFS. What one event can do to the state: the effect of each instruction that answers a next state, and
what each operation of the Control register leaves alone (R130 to R161, R220, R238, R252, R253, R300). -/

namespace Sys2Proof.Proofs.BlockState
open Sys2Proof Sys2Proof.Machine

/-! Operations of the register accesses: each whole, or what it leaves alone -/

/-- The side effect of a Data-register read, whole (R147). -/
theorem consumeResult_eq (s : State) :
    consumeResult s = { s with
      eoc := false
      irq := false
      out := { s.out with lines := s.out.lines ++ if s.irq then [.irq false] else [] } } := by
  rw [consumeResult, lowerIrq_eq]

/-- What an enable-write that answers a next state does (R183). -/
theorem enableWrite_cases {s t : State} (h : enableWrite s = .next t) :
    t = s ∨ t = raiseDiag .enableEmptySequence s ∨
      (s.enabled = false ∧ s.seqLen ≠ 0 ∧ s.sq[0].toNat < s.params.nCh.val ∧
        t = { s with
          enabled := true, adrdy := true, currentChannel := some (channelAt s.sq[0].toNat) }) := by
  unfold enableWrite at h
  split at h
  · exact .inl (Host.Outcome.next.inj h).symm
  · split at h
    · exact .inr (.inl (Host.Outcome.next.inj h).symm)
    · next hen hlen =>
      obtain ⟨hslot, ht⟩ := selectChannel_eq_next_iff.1 h
      exact .inr (.inr ⟨by simpa using hen, hlen, hslot, ht⟩)

/-- A disable-write of an enabled block, whole (R184, R196). -/
theorem disableWrite_of_enabled {s : State} (h : s.enabled = true) :
    disableWrite s = { s with
      enabled := false, timer := none, cursor := 0, currentChannel := none, scanActive := false
      seqLen := if s.lenDirty then lengthValue s.l else s.seqLen
      lenDirty := false
      out := (disableWrite s).out } := by
  simp [disableWrite, h, applyLength_eq, disarmTimer_eq]

theorem disableWrite_of_disabled {s : State} (h : s.enabled = false) : disableWrite s = s := by
  simp [disableWrite, h]

/-- A disable-write ends at position 0 or leaves the cursor where it is (R24, R184). -/
theorem disableWrite_cursor (s : State) : (disableWrite s).cursor = 0 ∨ (disableWrite s).cursor = s.cursor := by
  cases h : s.enabled with
  | true => rw [disableWrite_of_enabled h]; exact .inl rfl
  | false => rw [disableWrite_of_disabled h]; exact .inr rfl

@[simp] theorem disableWrite_latchedResult (s : State) :
    (disableWrite s).latchedResult = s.latchedResult := by unfold disableWrite; split <;> simp

@[simp] theorem disableWrite_chan (s : State) : (disableWrite s).chan = s.chan := by
  unfold disableWrite; split <;> simp

@[simp] theorem startWrite_latchedResult (s : State) : (startWrite s).latchedResult = s.latchedResult := by
  unfold startWrite; split_ifs <;> simp

@[simp] theorem startWrite_chan (s : State) : (startWrite s).chan = s.chan := by
  unfold startWrite; split_ifs <;> simp

@[simp] theorem startWrite_cursor (s : State) : (startWrite s).cursor = s.cursor := by
  unfold startWrite; split_ifs <;> simp

@[simp] theorem triggerModeChanged_latchedResult (old new : BitVec 2) (s : State) :
    (triggerModeChanged old new s).latchedResult = s.latchedResult := by
  unfold triggerModeChanged; split_ifs <;> simp

@[simp] theorem triggerModeChanged_chan (old new : BitVec 2) (s : State) :
    (triggerModeChanged old new s).chan = s.chan := by
  unfold triggerModeChanged; split_ifs <;> simp

@[simp] theorem triggerModeChanged_cursor (old new : BitVec 2) (s : State) :
    (triggerModeChanged old new s).cursor = s.cursor := by
  unfold triggerModeChanged; split_ifs <;> simp

/-- The last step of a Control write, whole: ADCAL does nothing (R138, R186). -/
theorem storeControl_eq (v : Word) (s : State) :
    storeControl v s = { s with crStore := v &&& s.params.crStorage } := by
  simp [storeControl, calibrationWrite]

/-- The Control write after its ADEN part, which left `s` (R138). -/
def controlAfterEnable (v : Word) (s : State) : State :=
  storeControl v ((if v.getLsbD adstartBit then startWrite else id)
    ((if v.getLsbD addisBit then disableWrite else id) s))

/-- The Configuration write up to its trigger-mode procedure, and that procedure (R140, R187). -/
def configured (v : Word) (s : State) : State :=
  triggerModeChanged s.exten (extenOf v)
    { s with dmngt := dmngtOf v, res := resOf v, extsel := extselOf v, exten := extenOf v }

/-- What an event can do to the state `s` in which its processing begins (R10): the next states it can answer,
with the conditions under which it answers them. -/
inductive Effect : Instr → State → State → Prop
  /-- Only the outputs move: plain reads, accesses without effect, dropped edges, rejected feeds. -/
  | outputs {i : Instr} {s : State} (o : Outputs) : Effect i s { s with out := o }
  /-- A Data-register read consumes the result (R147 to R149). -/
  | dataRead {i : Instr} {s : State} (v : ReadValue) (hi : i = .rd32Dr ∨ i = .rd16Dr ∨ i = .rd8Dr) :
      Effect i s (answerRead v (consumeResult s))
  /-- R134. -/
  | status (v : Word) {s : State} :
      Effect (.wr32Isr v) s { clearFlags v s with isrStore := v &&& s.params.isrStorage }
  /-- R136. -/
  | interruptEnable (v : Word) {s : State} :
      Effect (.wr32Ier v) s { s with ier := v &&& s.params.ierStored }
  /-- R138: `u` is the state after the ADEN part. -/
  | control (v : Word) {s u : State} (hu : u = s ∨ enableWrite s = .next u) :
      Effect (.wr32Cr v) s (controlAfterEnable v u)
  /-- R140. -/
  | configuration (v : Word) {s : State} :
      Effect (.wr32Cfgr v) s
        { configured v s with cont := contOf v, cfgrStore := v &&& (configured v s).params.cfgrStorage }
  /-- R142. -/
  | sampleTiming1 (v : Word) {s : State} :
      Effect (.wr32Smpr1 v) s { s with smpr1 := v &&& s.params.smpr1Storage }
  /-- R144. -/
  | sampleTiming2 (v : Word) {s : State} :
      Effect (.wr32Smpr2 v) s { s with smpr2 := v &&& s.params.smpr2Storage }
  /-- R146. -/
  | sequence1 (v : Word) {s u : State} (hu : u = lengthWritten { s with l := lengthOf v }) :
      Effect (.wr32Sqr1 v) s { u with sq := storeSqr1 v u.sq, sqr1Store := v &&& u.params.sqr1Storage }
  /-- R157. -/
  | sequence2 (v : Word) {s : State} :
      Effect (.wr32Sqr2 v) s { s with sq := storeSqr2 v s.sq, sqr2Store := v &&& s.params.sqr2Storage }
  /-- R159. -/
  | sequence3 (v : Word) {s : State} :
      Effect (.wr32Sqr3 v) s { s with sq := storeSqr3 v s.sq, sqr3Store := v &&& s.params.sqr3Storage }
  /-- R161. -/
  | sequence4 (v : Word) {s : State} :
      Effect (.wr32Sqr4 v) s { s with sq := storeSqr4 v s.sq, sqr4Store := v &&& s.params.sqr4Storage }
  /-- An edge that triggers (R220, R224). -/
  | edge (line : BitVec 5) (level : Bool) {s t : State} (hext : s.exten ≠ 0)
      (ht : drain s.seqLen.val s = .next t) : Effect (.edge line level) s t
  /-- R238. -/
  | expire {s t : State} (htimer : s.timer = some s.now) (ht : complete { s with timer := none } = .next t) :
      Effect .expire s t
  /-- An accepted feed of one value (R252). -/
  | feedValue {ch : BitVec 8} (value : Word) {rep : Int} {s : State} (hch : ch.toNat < s.params.nCh.val)
      (hrep : rep ≠ 0) :
      Effect (.feedv ch value rep) s (answerHarness .ok (installFeed (channelAt ch.toNat) [value] rep s))
  /-- An accepted feed of a list (R253). -/
  | feedList {ch : BitVec 8} {values : List Word} {rep : Int} {s : State} (hch : ch.toNat < s.params.nCh.val)
      (hrep : rep ≠ 0) (hvalues : values ≠ []) :
      Effect (.feeds ch (some values) rep) s
        (answerHarness .ok (installFeed (channelAt ch.toNat) values rep s))
  /-- R300. -/
  | reset {s : State} : Effect .reset s (resetRegisters (lowerIrq (disarmTimer s)))

/-- The next state of an event whose processing always answers one. -/
theorem next_of_onEvent {s t : State} {f : State → State} (h : onEvent s (fun u => .next (f u)) = .next t) :
    t = f s.begun :=
  (Host.Outcome.next.inj (onEvent_eq_next_iff.1 h).2).symm

/-- An event whose processing moves only the outputs. -/
theorem Effect.of_outputs {i : Instr} {s t : State} {f : State → State}
    (h : onEvent s (fun u => .next (f u)) = .next t) (hf : ∀ u, f u = { u with out := (f u).out }) :
    Effect i s.begun t := by
  rw [next_of_onEvent h, hf]
  exact .outputs _

theorem Effect.of_unnamedRead {i : Instr} {off : Offset} {s t : State} (h : unnamedRead off s = .next t) :
    Effect i s.begun t :=
  .of_outputs h fun u => by rw [unnamedAccess_eq]; rfl

theorem Effect.of_unnamedWrite {i : Instr} {off : Offset} {v : Word} {s t : State}
    (h : unnamedWrite off v s = .next t) : Effect i s.begun t :=
  .of_outputs h fun u => by rw [unnamedAccess_eq]

theorem Effect.of_execWr32Cr {v : Word} {s t : State} (h : execWr32Cr v s = .next t) :
    Effect (.wr32Cr v) s.begun t := by
  obtain ⟨-, h⟩ := onEvent_eq_next_iff.1 h
  obtain ⟨u, hu, h⟩ := andThen_eq_next_iff.1 h
  have ht : t = controlAfterEnable v u := by
    rw [← Host.Outcome.next.inj h, controlAfterEnable]
    cases v.getLsbD addisBit <;> cases v.getLsbD adstartBit <;> rfl
  rw [ht]
  refine .control v ?_
  split at hu
  · exact .inr hu
  · exact .inl (Host.Outcome.next.inj hu).symm

theorem Effect.of_execEdge {line : BitVec 5} {level : Bool} {s t : State}
    (h : execEdge line level s = .next t) : Effect (.edge line level) s.begun t := by
  obtain ⟨-, h⟩ := onEvent_eq_next_iff.1 h
  split at h
  · cases h
  split at h
  · cases h; exact .outputs _
  next hext =>
  split at h
  · cases h; exact .outputs _
  split at h
  · cases h; exact .outputs _
  split at h
  · cases h; exact .outputs _
  split at h
  · cases h; exact .outputs _
  · exact .edge line level hext h

theorem Effect.of_execExpire {s t : State} (h : execExpire s = .next t) : Effect .expire s.begun t := by
  obtain ⟨-, h⟩ := onEvent_eq_next_iff.1 h
  split at h
  · cases h
  · next deadline hd =>
    split at h
    · next hnow => exact .expire (hnow ▸ hd) h
    · cases h

theorem Effect.of_execFeedv {ch : BitVec 8} {value : Word} {rep : Int} {s t : State}
    (h : execFeedv ch value rep s = .next t) : Effect (.feedv ch value rep) s.begun t := by
  obtain ⟨-, h⟩ := onEvent_eq_next_iff.1 h
  split at h
  · cases h; exact .outputs _
  next hch =>
  split at h
  · cases h; exact .outputs _
  · next hrep => cases h; exact .feedValue value (Nat.lt_of_not_le hch) hrep

theorem Effect.of_execFeeds {ch : BitVec 8} {values : Option (List Word)} {rep : Int} {s t : State}
    (h : execFeeds ch values rep s = .next t) : Effect (.feeds ch values rep) s.begun t := by
  obtain ⟨-, h⟩ := onEvent_eq_next_iff.1 h
  split at h
  · cases h; exact .outputs _
  next hch =>
  cases values with
  | none => cases h; exact .outputs _
  | some vs =>
    dsimp only at h
    split at h
    · cases h; exact .outputs _
    next hrep =>
    split at h
    · cases h; exact .outputs _
    · next hvs => cases h; exact .feedList (Nat.lt_of_not_le hch) hrep hvs

/-- Whatever the event, if it answers a next state, it has one of the effects. -/
theorem effect_of_exec {i : Instr} {s t : State} (h : exec i s = .next t) : Effect i s.begun t := by
  cases i with
  | wr32Isr v => obtain rfl := next_of_onEvent (show execWr32Isr v s = .next t from h); exact .status v
  | wr32Ier v => obtain rfl := next_of_onEvent (show execWr32Ier v s = .next t from h); exact .interruptEnable v
  | wr32Cr v => exact .of_execWr32Cr h
  | wr32Cfgr v => obtain rfl := next_of_onEvent (show execWr32Cfgr v s = .next t from h); exact .configuration v
  | wr32Smpr1 v => obtain rfl := next_of_onEvent (show execWr32Smpr1 v s = .next t from h); exact .sampleTiming1 v
  | wr32Smpr2 v => obtain rfl := next_of_onEvent (show execWr32Smpr2 v s = .next t from h); exact .sampleTiming2 v
  | wr32Sqr1 v => obtain rfl := next_of_onEvent (show execWr32Sqr1 v s = .next t from h); exact .sequence1 v rfl
  | wr32Sqr2 v => obtain rfl := next_of_onEvent (show execWr32Sqr2 v s = .next t from h); exact .sequence2 v
  | wr32Sqr3 v => obtain rfl := next_of_onEvent (show execWr32Sqr3 v s = .next t from h); exact .sequence3 v
  | wr32Sqr4 v => obtain rfl := next_of_onEvent (show execWr32Sqr4 v s = .next t from h); exact .sequence4 v
  | rd32Dr => obtain rfl := next_of_onEvent (show execRd32Dr s = .next t from h); exact .dataRead _ (.inl rfl)
  | rd16Dr => obtain rfl := next_of_onEvent (show execRd16Dr s = .next t from h); exact .dataRead _ (.inr (.inl rfl))
  | rd8Dr => obtain rfl := next_of_onEvent (show execRd8Dr s = .next t from h); exact .dataRead _ (.inr (.inr rfl))
  | edge line level => exact .of_execEdge h
  | expire => exact .of_execExpire h
  | feedv ch value rep => exact .of_execFeedv h
  | feeds ch values rep => exact .of_execFeeds h
  | reset => obtain rfl := next_of_onEvent (show execReset s = .next t from h); exact .reset
  | busSizeCode3 write off => cases h
  | otherDescriptor desc => cases h
  | rd32Isr | rd32Ier | rd32Cr | rd32Cfgr | rd32Smpr1 | rd32Smpr2 | rd32Sqr1 | rd32Sqr2 | rd32Sqr3 | rd32Sqr4
  | wr32Dr | rd16Narrow | rd8Narrow | wr16Narrow | wr8Narrow =>
    rw [exec] at h
    exact .of_outputs h fun _ => rfl
  | rd32Inert10 | rd32Inert1C | rd32Inert20 | rd32Inert24 | rd32Inert4C | rd32Inert60 | rd32Inert64 | rd32Inert68
  | rd32Inert6C | rd32Inert80 | rd32Inert84 | rd32Inert88 | rd32Inert8C | rd32InertA0 | rd32InertA4 | rd32InertB0
  | rd32InertB4 | rd32InertB8 | rd32InertBC | rd32InertC0 | rd32InertC4 | rd32InertC8 | rd32Unmapped =>
    exact .of_unnamedRead h
  | wr32Inert10 v | wr32Inert1C v | wr32Inert20 v | wr32Inert24 v | wr32Inert4C v | wr32Inert60 v | wr32Inert64 v
  | wr32Inert68 v | wr32Inert6C v | wr32Inert80 v | wr32Inert84 v | wr32Inert88 v | wr32Inert8C v | wr32InertA0 v
  | wr32InertA4 v | wr32InertB0 v | wr32InertB4 v | wr32InertB8 v | wr32InertBC v | wr32InertC0 v | wr32InertC4 v
  | wr32InertC8 v | wr32Unmapped _ v =>
    exact .of_unnamedWrite (v := v) h

end Sys2Proof.Proofs.BlockState
end

section
/-! PROOFS. The invariants of R32: they hold at construction, and every step keeps them. One lemma per
operation, then one case per effect. -/

namespace Sys2Proof.Proofs.BlockState
open Sys2Proof Sys2Proof.Machine

/-- A masked word stays as it is under its mask (R20, R45). -/
theorem masked_and (v mask : Word) : v &&& mask &&& mask = v &&& mask := by
  rw [BitVec.and_assoc, BitVec.and_self]

/-! The state at construction -/

/-- The invariants hold at construction under every legal record (R50, R32). -/
theorem constructed_inv {p : Params} (hp : p.Legal) : (State.constructed p).Inv where
  params_legal := hp
  length_of_enabled := nofun
  cursor_lt h := h
  of_disabled _ := ⟨rfl, rfl, rfl, rfl, rfl⟩
  channel_of_enabled := nofun
  channel_lt := nofun
  of_timer := nofun
  scan_of_timer := nofun
  now_le_deadline := nofun
  cursor_of_lenDirty := nofun
  dmaReq_low := rfl
  chan_wf c := by simp [State.constructed, Channel.unfed, Channel.wf]
  chan_unused c _ := by simp [State.constructed]
  ier_stored := BitVec.zero_and
  cr_stored := BitVec.zero_and
  cfgr_stored := BitVec.zero_and
  smpr1_stored := BitVec.zero_and
  smpr2_stored := BitVec.zero_and
  isr_stored := BitVec.zero_and
  sqr1_stored := BitVec.zero_and
  sqr2_stored := BitVec.zero_and
  sqr3_stored := BitVec.zero_and
  sqr4_stored := BitVec.zero_and

/-- Settles O13: the invariant at construction, and the bound parameters are legal. -/
theorem constructionHasInvariant : Obligations.ConstructionHasInvariant := by
  unfold Obligations.ConstructionHasInvariant
  exact ⟨fun _ hp => constructed_inv hp, constructed_inv Scope.bound_legal⟩

/-- Settles O11: every field by its definition, the two vectors at each of their indices. -/
theorem constructionState : Obligations.ConstructionState := by
  unfold Obligations.ConstructionState
  refine ⟨fun p => ?_, rfl, rfl⟩
  have hsq : ∀ i : Fin 16, (State.constructed p).sq[i] = 0 := fun i => by simp [State.constructed]
  have hfed : ∀ c : Fin Config.maxCh, ((State.constructed p).chan[c]).fed = false := fun c => by
    simp [State.constructed, Channel.unfed]
  exact ⟨rfl, rfl, rfl, rfl, rfl, rfl, rfl, rfl, rfl, rfl, rfl, rfl, rfl, rfl, rfl, hsq, rfl, rfl, rfl, rfl,
    rfl, rfl, rfl, rfl, rfl, rfl, rfl, rfl, rfl, rfl, hfed, rfl, rfl⟩

/-! The timer -/

/-- The timer, the trigger mode and the clock may change as long as an armed timer meets what R32 item 5, R201
and R240 ask of it. -/
theorem inv_retimed {s : State} (hs : s.Inv) (timer : Option VTime) (exten : BitVec 2) (now : VTime)
    (h : ∀ deadline ∈ timer, s.enabled = true ∧ exten = 0 ∧ s.scanActive = true ∧ now ≤ deadline) :
    ({ s with timer := timer, exten := exten, now := now } : State).Inv :=
  { hs with
    of_disabled hd := by
      obtain ⟨hcur, hchan, -, hscan, hlen⟩ := hs.of_disabled hd
      refine ⟨hcur, hchan, Option.eq_none_iff_forall_not_mem.2 fun d hmem => ?_, hscan, hlen⟩
      exact Bool.false_ne_true (hd.symm.trans (h d hmem).1)
    of_timer hsome := by
      obtain ⟨d, hd⟩ := Option.isSome_iff_exists.1 hsome
      exact ⟨(h d hd).1, (h d hd).2.1⟩
    scan_of_timer hsome := by
      obtain ⟨d, hd⟩ := Option.isSome_iff_exists.1 hsome
      exact (h d hd).2.2.1
    now_le_deadline d hd := (h d hd).2.2.2 }

theorem nextDeadline_ge_now (s : State) : s.now ≤ nextDeadline s := Nat.le_add_right _ _

/-- What an armed timer tells under the invariants. -/
theorem inv_of_armed {s : State} (hs : s.Inv) {deadline : VTime} (h : s.timer = some deadline) :
    s.enabled = true ∧ s.exten = 0 ∧ s.scanActive = true ∧ s.now ≤ deadline := by
  have hsome : s.timer.isSome = true := by rw [h]; rfl
  obtain ⟨hen, hext⟩ := hs.of_timer hsome
  exact ⟨hen, hext, hs.scan_of_timer hsome, hs.now_le_deadline deadline h⟩

/-- In an external mode the timer is disarmed (R32 item 5). -/
theorem timer_none_of_external {s : State} (hs : s.Inv) (hext : s.exten ≠ 0) : s.timer = none :=
  Option.eq_none_iff_forall_ne_some.2 fun _ hd => hext (inv_of_armed hs hd).2.1

/-- Scan mode belongs to an enabled block (R32 item 3). -/
theorem enabled_of_scanActive {s : State} (hs : s.Inv) (hscan : s.scanActive = true) : s.enabled = true := by
  by_contra hen
  obtain ⟨-, -, -, hoff, -⟩ := hs.of_disabled (Bool.eq_false_iff.2 hen)
  exact Bool.false_ne_true (hoff.symm.trans hscan)

/-- The deadline of a timer that arms, or stays armed, is not past (R236, R240). -/
theorem armed_deadline_ge_now {s : State} (hs : s.Inv) :
    ∀ deadline ∈ some (s.timer.getD (nextDeadline s)), s.now ≤ deadline := by
  rintro _ ⟨⟩
  cases ht : s.timer with
  | none => exact nextDeadline_ge_now s
  | some d => exact (inv_of_armed hs ht).2.2.2

theorem armTimer_inv {s : State} (hs : s.Inv) (hext : s.exten = 0) (hscan : s.scanActive = true) :
    (armTimer s).Inv := by
  have h := inv_retimed hs (some (s.timer.getD (nextDeadline s))) s.exten s.now fun d hd =>
    ⟨enabled_of_scanActive hs hscan, hext, hscan, armed_deadline_ge_now hs d hd⟩
  rw [armTimer_eq]
  exact { h with }

/-! Register accesses -/

theorem consumeResult_inv {s : State} (hs : s.Inv) : (consumeResult s).Inv := by
  rw [consumeResult_eq]
  exact { hs with }

/-- An enable-write that takes effect finds a positive length and latches the first slot as the pending channel
(R183, R32 items 1 and 4). -/
theorem enableWrite_inv {s t : State} (hs : s.Inv) (h : enableWrite s = .next t) : t.Inv := by
  obtain rfl | rfl | ⟨hen, hlen, hslot, rfl⟩ := enableWrite_cases h
  · exact hs
  · exact { hs with }
  · obtain ⟨-, -, htimer, -, -⟩ := hs.of_disabled hen
    exact { hs with
      length_of_enabled := fun _ => Nat.one_le_iff_ne_zero.2 fun h0 => hlen (Fin.ext h0)
      of_disabled := nofun
      channel_of_enabled := fun _ => rfl
      channel_lt := by rintro _ ⟨⟩; rwa [channelAt_slot_val]
      of_timer := fun hsome => by simp [htimer] at hsome }

theorem disableWrite_inv {s : State} (hs : s.Inv) : (disableWrite s).Inv := by
  cases hen : s.enabled with
  | false => rwa [disableWrite_of_disabled hen]
  | true =>
    rw [disableWrite_of_enabled hen]
    exact { hs with
      length_of_enabled := nofun
      cursor_lt := fun h => h
      of_disabled := fun _ => ⟨rfl, rfl, rfl, rfl, rfl⟩
      channel_of_enabled := nofun
      channel_lt := nofun
      of_timer := nofun
      scan_of_timer := nofun
      now_le_deadline := nofun
      cursor_of_lenDirty := nofun }

theorem startWrite_inv {s : State} (hs : s.Inv) : (startWrite s).Inv := by
  unfold startWrite
  split
  · next hen =>
    have hscan : ({ s with scanActive := true } : State).Inv :=
      { hs with
        of_disabled := fun hd => absurd (hd.symm.trans hen) Bool.false_ne_true
        scan_of_timer := fun _ => rfl }
    split
    · next hext => exact armTimer_inv hscan hext rfl
    · exact hscan
  · exact { hs with }

theorem controlAfterEnable_inv {s : State} (v : Word) (hs : s.Inv) : (controlAfterEnable v s).Inv := by
  have hdis : ((if v.getLsbD addisBit then disableWrite else id) s).Inv := by
    split
    · exact disableWrite_inv hs
    · exact hs
  have hstart : ((if v.getLsbD adstartBit then startWrite else id)
      ((if v.getLsbD addisBit then disableWrite else id) s)).Inv := by
    split
    · exact startWrite_inv hdis
    · exact hdis
  rw [controlAfterEnable, storeControl_eq]
  exact { hstart with cr_stored := masked_and _ _ }

/-- A change to an external mode disarms the timer before any invariant is asked about it; a change to internal
mode arms it in scan mode only (R187, R32 item 5, R201). -/
theorem configured_inv {s : State} (v : Word) (hs : s.Inv) : (configured v s).Inv := by
  unfold configured triggerModeChanged
  split
  · rw [disarmTimer_eq]
    exact { inv_retimed hs none (extenOf v) s.now nofun with }
  next hnew =>
  have hnew : extenOf v = 0 := of_not_not hnew
  have hint : ({ s with exten := extenOf v } : State).Inv :=
    { inv_retimed hs s.timer (extenOf v) s.now fun d hd => by
        obtain ⟨hen, -, hrest⟩ := inv_of_armed hs hd
        exact ⟨hen, hnew, hrest⟩ with }
  split
  · next harm =>
    simp only [Bool.and_eq_true] at harm
    exact armTimer_inv { hint with } hnew harm.2
  · exact { hint with }

/-- A written length takes effect at once at position 0 and waits elsewhere (R197, R32 items 2, 3 and 6). -/
theorem lengthWritten_inv {s : State} (l : BitVec 4) (hs : s.Inv) :
    (lengthWritten { s with l := l }).Inv := by
  unfold lengthWritten
  split
  · next hcur =>
    have hcur : s.cursor = 0 := by simpa using hcur
    have hlen : 1 ≤ (lengthValue l).val := by simp
    exact { hs with
      length_of_enabled := fun _ => hlen
      cursor_lt := fun _ => by simp [hcur]
      of_disabled := fun hd => by
        obtain ⟨h1, h2, h3, h4, -⟩ := hs.of_disabled hd
        exact ⟨h1, h2, h3, h4, rfl⟩
      cursor_of_lenDirty := nofun }
  · next hcur =>
    have hcur : s.cursor ≠ 0 := by simpa using hcur
    exact { hs with
      of_disabled := fun hd => absurd (hs.of_disabled hd).1 hcur
      cursor_of_lenDirty := fun _ => hcur }

/-! Channels -/

/-- A channel of the block may be replaced by any well-formed one (R31, R32 item 8). -/
theorem inv_set_chan {s : State} (hs : s.Inv) {c : Fin Config.maxCh} (hc : c.val < s.params.nCh.val)
    {x : Channel} (hx : x.wf = true) : ({ s with chan := s.chan.set c x } : State).Inv :=
  { hs with
    chan_wf := fun d => by
      rcases eq_or_ne c.val d.val with hcd | hcd
      · simpa [hcd] using hx
      · simpa [Vector.getElem_set_ne _ _ hcd] using hs.chan_wf d
    chan_unused := fun d hd => by
      have hcd : c.val ≠ d.val := (hc.trans_le hd).ne
      simpa [Vector.getElem_set_ne _ _ hcd] using hs.chan_unused d hd }

theorem installFeed_inv {s : State} (hs : s.Inv) {n : Nat} (hn : n < s.params.nCh.val) {values : List Word}
    {rep : Int} (hvalues : values ≠ []) (hrep : rep ≠ 0) :
    (installFeed (channelAt n) values rep s).Inv := by
  have hval : (channelAt n).val = n := channelAt_val (by have := s.params.nCh.isLt; omega)
  exact inv_set_chan hs (by rwa [hval]) (passesOf_wf hvalues hrep)

/-! Completions -/

/-- A completion leaves the cursor below the length in force (R194, R32 item 2). -/
theorem advanceCursor_lt {s : State} (hs : s.Inv) (hlen : s.seqLen ≠ 0) :
    (advanceCursor s).cursor.val < s.seqLen.val := by
  have hpos : 1 ≤ s.seqLen.val := Nat.one_le_iff_ne_zero.2 fun h0 => hlen (Fin.ext h0)
  have hcur := hs.cursor_lt hpos
  rw [advanceCursor_cursor_val hcur]
  split <;> omega

/-- A completion keeps the invariants where only scan mode can bring the block to one in internal mode
(R190, R201). -/
theorem complete_inv {s t : State} (hs : s.Inv) (hscan : s.exten = 0 → s.scanActive = true)
    (h : complete s = .next t) : t.Inv := by
  obtain ⟨c, hc, hen, hlen, -, hslot, rfl⟩ := complete_eq_next_iff_completed.1 h
  have hpop := inv_set_chan hs (hs.channel_lt c hc) (popChannel_wf (hs.chan_wf c))
  have hrearm : rearms s = true → s.exten = 0 := fun hr => by
    simp only [rearms, Bool.and_eq_true, beq_iff_eq] at hr
    exact hr.1
  have hcur := advanceCursor_lt hs hlen
  have hlt : (advanceCursor s).cursor.val <
      (if s.lenDirty && (advanceCursor s).cursor == 0 then lengthValue s.l else s.seqLen).val := by
    split
    · next hz =>
      simp only [Bool.and_eq_true, beq_iff_eq] at hz
      simp [hz.2]
    · exact hcur
  exact { hpop with
    length_of_enabled := fun _ => Nat.one_le_of_lt hlt
    cursor_lt := fun _ => hlt
    of_disabled := fun hd => absurd (hd.symm.trans hen) Bool.false_ne_true
    channel_of_enabled := fun _ => rfl
    channel_lt := by rintro _ ⟨⟩; rwa [channelAt_slot_val]
    of_timer := fun hsome => ⟨hen, hrearm (by by_contra hr; simp [completed, hr] at hsome)⟩
    scan_of_timer := fun hsome => hscan (hrearm (by by_contra hr; simp [completed, hr] at hsome))
    now_le_deadline := fun d hd => by
      have hd : d ∈ (if rearms s then some (nextDeadline s) else none) := hd
      split at hd
      · cases hd; exact nextDeadline_ge_now s
      · cases hd
    cursor_of_lenDirty := fun hdirty => by
      simp only [completed, Bool.and_eq_true, Bool.not_eq_true', beq_eq_false_iff_ne] at hdirty
      exact hdirty.2
    dmaReq_low := by simp [completed, hs.dmaReq_low] }

/-- A completion leaves the trigger mode alone (R190). -/
theorem complete_exten {s t : State} (h : complete s = .next t) : t.exten = s.exten := by
  obtain ⟨c, -, -, -, -, -, rfl⟩ := complete_eq_next_iff_completed.1 h
  rfl

/-- A drain in an external mode keeps the invariants, completion by completion (R224). -/
theorem drain_inv {n : Nat} {s t : State} (hs : s.Inv) (hext : s.exten ≠ 0) (h : drain n s = .next t) :
    t.Inv := by
  refine drain_induction (P := fun s t => s.Inv → s.exten ≠ 0 → t.Inv) (fun _ hs _ => hs) ?_ n s t h hs hext
  intro s u t hu ih hs hext
  exact ih (complete_inv hs (fun h0 => absurd h0 hext) hu) (complete_exten hu ▸ hext)

/-- An expiry consumes the timer, which ran in scan mode only, before the completion (R201, R238). -/
theorem expire_inv {s t : State} (hs : s.Inv) (htimer : s.timer = some s.now)
    (h : complete { s with timer := none } = .next t) : t.Inv := by
  have hoff : ({ s with timer := none } : State).Inv := { inv_retimed hs none s.exten s.now nofun with }
  obtain ⟨-, -, hscan, -⟩ := inv_of_armed hs htimer
  exact complete_inv hoff (fun _ => hscan) h

/-! Reset -/

/-- `RESET` brings all but the channels, the clock and the parameters to their state at construction (R300, R50,
R259). -/
theorem reset_inv {s : State} (hs : s.Inv) : (resetRegisters (lowerIrq (disarmTimer s))).Inv := by
  rw [lowerIrq_eq, disarmTimer_eq]
  have hunfed : resetChannel Channel.unfed = Channel.unfed := rfl
  exact { constructed_inv hs.params_legal with
    now_le_deadline := nofun
    chan_wf := fun c => by simpa [resetRegisters] using resetChannel_wf (hs.chan_wf c)
    chan_unused := fun c hc => by
      simpa [resetRegisters, hunfed] using congrArg resetChannel (hs.chan_unused c hc) }

/-! All events -/

/-- Every effect keeps the invariants. -/
theorem effect_inv {i : Instr} {s t : State} (h : Effect i s t) (hs : s.Inv) : t.Inv := by
  cases h with
  | outputs o => exact { hs with }
  | dataRead v hi => exact { consumeResult_inv hs with }
  | status v => exact { hs with isr_stored := masked_and _ _ }
  | interruptEnable v => exact { hs with ier_stored := masked_and _ _ }
  | control v hu =>
    obtain rfl | hu := hu
    · exact controlAfterEnable_inv v hs
    · exact controlAfterEnable_inv v (enableWrite_inv hs hu)
  | configuration v => exact { configured_inv v hs with cfgr_stored := masked_and _ _ }
  | sampleTiming1 v => exact { hs with smpr1_stored := masked_and _ _ }
  | sampleTiming2 v => exact { hs with smpr2_stored := masked_and _ _ }
  | sequence1 v hu => subst hu; exact { lengthWritten_inv (lengthOf v) hs with sqr1_stored := masked_and _ _ }
  | sequence2 v => exact { hs with sqr2_stored := masked_and _ _ }
  | sequence3 v => exact { hs with sqr3_stored := masked_and _ _ }
  | sequence4 v => exact { hs with sqr4_stored := masked_and _ _ }
  | edge line level hext ht => exact drain_inv hs hext ht
  | expire htimer ht => exact expire_inv hs htimer ht
  | feedValue value hch hrep => exact { installFeed_inv hs hch (List.cons_ne_nil _ _) hrep with }
  | feedList hch hrep hvalues => exact { installFeed_inv hs hch hvalues hrep with }
  | reset => exact reset_inv hs

theorem exec_inv {i : Instr} {s t : State} (hs : s.Inv) (h : exec i s = .next t) : t.Inv :=
  effect_inv (effect_of_exec h) { hs with }

/-- A delivery in time leaves the clock at or before the deadline of an armed timer (R240). -/
theorem delivered_inv {s : State} {d : Delivery} {rest : List Delivery} (hs : s.Inv)
    (hin : passesDeadline s { s with inbox := rest, now := s.now + d.elapsed } = false) :
    ({ s with inbox := rest, now := s.now + d.elapsed } : State).Inv := by
  have htime := Scope.passesDeadline_eq_false_iff.1 hin
  refine { inv_retimed hs s.timer s.exten (s.now + d.elapsed) fun deadline hd => ?_ with }
  obtain ⟨hen, hext, hscan, hnow⟩ := inv_of_armed hs hd
  exact ⟨hen, hext, hscan, htime deadline hd hnow⟩

/-- Settles O14: a delivery in time keeps the invariants, and so does the effect of its event. -/
theorem stepKeepsInvariant : Obligations.StepKeepsInvariant := by
  unfold Obligations.StepKeepsInvariant
  intro s s' hs h
  cases hin : s.inbox with
  | nil =>
    rw [step_of_inbox_nil hin] at h
    cases h
    exact hs
  | cons d rest =>
    rw [step_of_inbox_cons hin] at h
    split at h
    · cases h
    · next htime => exact exec_inv (delivered_inv hs (Bool.eq_false_iff.2 htime)) h

end Sys2Proof.Proofs.BlockState
end

section
/-! PROOFS. Which events write the latched result (R27, R198), the cursor (R24, R194) and the channels (R31, R250). -/

namespace Sys2Proof.Proofs.BlockState
open Sys2Proof Sys2Proof.Machine

/-- What the ADEN part of a Control write leaves alone (R183). -/
theorem enableWrite_keeps {s t : State} (h : t = s ∨ enableWrite s = .next t) :
    t.latchedResult = s.latchedResult ∧ t.cursor = s.cursor ∧ t.chan = s.chan := by
  obtain rfl | h := h
  · exact ⟨rfl, rfl, rfl⟩
  · obtain rfl | rfl | ⟨-, -, -, rfl⟩ := enableWrite_cases h <;> exact ⟨rfl, rfl, rfl⟩

@[simp] theorem controlAfterEnable_latchedResult (v : Word) (s : State) :
    (controlAfterEnable v s).latchedResult = s.latchedResult := by
  rw [controlAfterEnable, storeControl_eq]
  cases v.getLsbD addisBit <;> cases v.getLsbD adstartBit <;> simp

@[simp] theorem controlAfterEnable_chan (v : Word) (s : State) : (controlAfterEnable v s).chan = s.chan := by
  rw [controlAfterEnable, storeControl_eq]
  cases v.getLsbD addisBit <;> cases v.getLsbD adstartBit <;> simp

/-- Of the commands after ADEN only ADDIS reaches the cursor (R24). -/
theorem controlAfterEnable_cursor (v : Word) (s : State) :
    (controlAfterEnable v s).cursor = ((if v.getLsbD addisBit then disableWrite else id) s).cursor := by
  rw [controlAfterEnable, storeControl_eq]
  cases v.getLsbD adstartBit <;> simp

@[simp] theorem configured_latchedResult (v : Word) (s : State) :
    (configured v s).latchedResult = s.latchedResult := by simp [configured]

@[simp] theorem configured_cursor (v : Word) (s : State) : (configured v s).cursor = s.cursor := by
  simp [configured]

@[simp] theorem configured_chan (v : Word) (s : State) : (configured v s).chan = s.chan := by
  simp [configured]

/-- Settles O53: every other effect leaves the latched result as it was. -/
theorem latchedResultOnlyByCompletionOrReset : Obligations.LatchedResultOnlyByCompletionOrReset := by
  unfold Obligations.LatchedResultOnlyByCompletionOrReset
  intro i s t h hne
  cases effect_of_exec h with
  | expire htimer ht => exact .inl rfl
  | reset => exact .inr (.inl rfl)
  | edge line level hext ht => exact .inr (.inr ⟨line, level, rfl, hext⟩)
  | control v hu =>
    obtain ⟨hkeep, -, -⟩ := enableWrite_keeps hu
    exact absurd ((controlAfterEnable_latchedResult v _).trans hkeep) hne
  | configuration v => exact absurd (configured_latchedResult v s.begun) hne
  | sequence1 v hu => subst hu; exact absurd (lengthWritten_latchedResult _) hne
  | dataRead v hi => exact absurd (lowerIrq_latchedResult _) hne
  | _ => exact absurd rfl hne

/-- Settles O56: of the other effects only a Control write with ADDIS reaches the cursor. -/
theorem cursorWrittenOnlyByThree : Obligations.CursorWrittenOnlyByThree := by
  unfold Obligations.CursorWrittenOnlyByThree
  intro i s t h hne
  cases effect_of_exec h with
  | expire htimer ht => exact .inl rfl
  | edge line level hext ht => exact .inr (.inl ⟨line, level, rfl, hext⟩)
  | reset => exact .inr (.inr (.inr ⟨rfl, rfl⟩))
  | @control v _ u hu =>
    obtain ⟨-, hkeep, -⟩ := enableWrite_keeps hu
    rw [controlAfterEnable_cursor] at hne ⊢
    cases hdis : v.getLsbD addisBit with
    | false => rw [hdis] at hne; exact absurd hkeep hne
    | true =>
      rw [hdis] at hne
      obtain hzero | hsame := disableWrite_cursor u
      · exact .inr (.inr (.inl ⟨v, rfl, hdis, hzero⟩))
      · exact absurd (hsame.trans hkeep) hne
  | configuration v => exact absurd (configured_cursor v s.begun) hne
  | sequence1 v hu => subst hu; exact absurd (lengthWritten_cursor _) hne
  | dataRead v hi => exact absurd (lowerIrq_cursor _) hne
  | _ => exact absurd rfl hne

/-- An accepted feed reaches no channel but its own (R250). -/
theorem installFeed_chan_ne {s : State} {n : Nat} (hn : n < s.params.nCh.val) (values : List Word) (rep : Int)
    (c : Fin Config.maxCh) (hc : c.val ≠ n) : (installFeed (channelAt n) values rep s).chan[c] = s.chan[c] := by
  have hval : (channelAt n).val = n := channelAt_val (by have := s.params.nCh.isLt; omega)
  have hne : (channelAt n).val ≠ c.val := by rw [hval]; exact hc.symm
  simp [installFeed, Vector.getElem_set_ne _ _ hne]

/-- A feed that is accepted touches its own channel, one that is rejected none (R252, R253, R256). -/
theorem feed_frame {i : Instr} {s t : State} {ch : BitVec 8}
    (hi : (∃ v r, i = .feedv ch v r) ∨ ∃ vs r, i = .feeds ch vs r) (h : exec i s = .next t) :
    t = { s with chan := t.chan, out := t.out } ∧
      ∀ c : Fin Config.maxCh, c.val ≠ ch.toNat → t.chan[c] = s.chan[c] := by
  cases effect_of_exec h with
  | outputs o => exact ⟨rfl, fun _ _ => rfl⟩
  | feedValue value hch hrep =>
    obtain ⟨_, _, hi⟩ | ⟨_, _, hi⟩ := hi <;> cases hi
    exact ⟨rfl, installFeed_chan_ne hch _ _⟩
  | feedList hch hrep hvalues =>
    obtain ⟨_, _, hi⟩ | ⟨_, _, hi⟩ := hi <;> cases hi
    exact ⟨rfl, installFeed_chan_ne hch _ _⟩
  | dataRead v hread => obtain ⟨_, _, rfl⟩ | ⟨_, _, rfl⟩ := hi <;> simp at hread
  | _ => obtain ⟨_, _, hi⟩ | ⟨_, _, hi⟩ := hi <;> cases hi

/-- Settles O58: no effect of a bus access reaches a channel, and a feed's reaches its own. -/
theorem channelsOutOfReachOfTheBus : Obligations.ChannelsOutOfReachOfTheBus := by
  unfold Obligations.ChannelsOutOfReachOfTheBus
  constructor
  · intro i s t h hne
    cases effect_of_exec h with
    | feedValue value hch hrep => exact .inl ⟨_, _, _, rfl⟩
    | feedList hch hrep hvalues => exact .inr (.inl ⟨_, _, _, rfl⟩)
    | expire htimer ht => exact .inr (.inr (.inl rfl))
    | reset => exact .inr (.inr (.inr (.inl rfl)))
    | edge line level hext ht => exact .inr (.inr (.inr (.inr ⟨line, level, rfl, hext⟩)))
    | control v hu =>
      obtain ⟨-, -, hkeep⟩ := enableWrite_keeps hu
      exact absurd ((controlAfterEnable_chan v _).trans hkeep) hne
    | configuration v => exact absurd (configured_chan v s.begun) hne
    | sequence1 v hu => subst hu; exact absurd (lengthWritten_chan _) hne
    | dataRead v hi => exact absurd (lowerIrq_chan _) hne
    | _ => exact absurd rfl hne
  · rintro s t ch r v vs (h | h)
    · exact feed_frame (.inl ⟨v, r, rfl⟩) h
    · exact feed_frame (.inr ⟨vs, r, rfl⟩) h

end Sys2Proof.Proofs.BlockState
end

section
/-! PROOFS. The bus reads that change nothing (R77): the word reads of the registers other than the Data register
(R133 to R160), and the reads where no register answers (R151 to R153). -/

namespace Sys2Proof.Proofs.PlainReads
open Sys2Proof Sys2Proof.Machine

/-- The step from `s` that answers `r` completes with a read value and moves only the outputs (R11, R77). -/
def AnswersOnly (s : State) (r : Result) : Prop :=
  ∃ t v, r = .next t ∧ t.out.readValue = some v ∧ t = { s with out := t.out }

/-- A read that returns `value` after an access `f` that moves only the outputs. -/
theorem answersOnly_of_access {s : State} (hs : s.faulted = none) (value : State → ReadValue) {f : State → State}
    (hf : ∀ u, f u = { u with out := (f u).out }) :
    AnswersOnly s (onEvent s fun u => .next (answerRead (value u) (f u))) := by
  refine ⟨answerRead (value s.begun) (f s.begun), value s.begun, onEvent_of_unfaulted hs _, rfl, ?_⟩
  rw [hf s.begun]
  rfl

/-- A read of a view of the registers (R133 to R160). -/
theorem answersOnly_view {s : State} (hs : s.faulted = none) (view : State → Word) :
    AnswersOnly s (onEvent s fun u => .next (answerRead (.word (view u)) u)) :=
  answersOnly_of_access hs (fun u => .word (view u)) fun _ => rfl

/-- A narrow read, logged (R153). -/
theorem answersOnly_narrow {s : State} (hs : s.faulted = none) (off : Offset) (bytes : Nat) (v : ReadValue) :
    AnswersOnly s (onEvent s fun u => .next (answerRead v (narrowAccess off bytes .read u))) :=
  answersOnly_of_access hs (fun _ => v) fun _ => rfl

/-- A word read where no register stands, silent or logged (R151, R152). -/
theorem answersOnly_unnamedRead {s : State} (hs : s.faulted = none) (off : Offset) :
    AnswersOnly s (unnamedRead off s) :=
  answersOnly_of_access hs (fun _ => .word 0) fun _ => by rw [unnamedAccess_eq]

/-- Each plain read is of one of the three kinds. -/
theorem answersOnly_of_isPlainRead {i : Instr} {s : State} (hi : i.isPlainRead = true) (hs : s.faulted = none) :
    AnswersOnly s (exec i s) := by
  cases i with
  | rd32Isr | rd32Ier | rd32Cr | rd32Cfgr | rd32Smpr1 | rd32Smpr2 | rd32Sqr1 | rd32Sqr2 | rd32Sqr3 | rd32Sqr4 =>
    exact answersOnly_view hs _
  | rd16Narrow off | rd8Narrow off => exact answersOnly_narrow hs off _ _
  | rd32Inert10 | rd32Inert1C | rd32Inert20 | rd32Inert24 | rd32Inert4C | rd32Inert60 | rd32Inert64 | rd32Inert68
  | rd32Inert6C | rd32Inert80 | rd32Inert84 | rd32Inert88 | rd32Inert8C | rd32InertA0 | rd32InertA4 | rd32InertB0
  | rd32InertB4 | rd32InertB8 | rd32InertBC | rd32InertC0 | rd32InertC4 | rd32InertC8 | rd32Unmapped =>
    exact answersOnly_unnamedRead hs _
  | _ => cases hi

/-- Settles O25: a plain read is an access that moves only the outputs, and an answer. -/
theorem plainReadsChangeNothing : Obligations.PlainReadsChangeNothing := by
  unfold Obligations.PlainReadsChangeNothing
  intro i s hi hs
  exact answersOnly_of_isPlainRead hi hs

end Sys2Proof.Proofs.PlainReads
end

section
/-! PROOFS. The decoder and the encoder (R100 to R103): the fields of a descriptor, what the first matching row gives
back, and which descriptors no agent produces (R122). -/

namespace Sys2Proof.Proofs.Encoding
open Sys2Proof Sys2Proof.Machine Sys2Proof.Laws

/-! Fields and masks of a descriptor (R100) -/

/-- The mask of the field of `len` bits from bit `start` up. -/
def fieldMask (start len : Nat) : Descriptor := (BitVec.allOnes len).setWidth 16 <<< start

theorem getLsbD_fieldMask (start len i : Nat) :
    (fieldMask start len).getLsbD i = (decide (i < 16) && decide (start ≤ i ∧ i < start + len)) := by
  simp only [fieldMask, BitVec.getLsbD_shiftLeft, BitVec.getLsbD_setWidth, BitVec.getLsbD_allOnes]
  grind

theorem and_fieldMask_eq_iff (start len : Nat) (d p : Descriptor) :
    d &&& fieldMask start len = p &&& fieldMask start len ↔
      d.extractLsb' start len = p.extractLsb' start len := by
  simp only [BitVec.eq_of_getLsbD_eq_iff, BitVec.getLsbD_and, getLsbD_fieldMask, BitVec.getLsbD_extractLsb']
  constructor
  · intro h i hi
    by_cases hw : start + i < 16
    · simpa [hw, hi] using h (start + i) hw
    · simp [BitVec.getLsbD_of_ge _ _ (Nat.le_of_not_lt hw)]
  · intro h i hi
    by_cases hf : start ≤ i ∧ i < start + len
    · have hfield := h (i - start) (by omega)
      simpa [Nat.add_sub_cancel' hf.1, hi, hf, show i - start < len by omega] using hfield
    · simp [hf]

theorem extract_shiftLeft (start len : Nat) (d : Descriptor) :
    (d.extractLsb' start len).setWidth 16 <<< start = d &&& fieldMask start len := by
  apply BitVec.eq_of_getLsbD_eq
  intro i hi
  simp only [BitVec.getLsbD_shiftLeft, BitVec.getLsbD_setWidth, BitVec.getLsbD_extractLsb', BitVec.getLsbD_and,
    getLsbD_fieldMask]
  grind

theorem lowField_setWidth (len : Nat) (d : Descriptor) :
    (d.extractLsb' 0 len).setWidth 16 = d &&& fieldMask 0 len := by
  simpa using extract_shiftLeft 0 len d

theorem and_or_eq_iff (d p m₁ m₂ : Descriptor) :
    d &&& (m₁ ||| m₂) = p &&& (m₁ ||| m₂) ↔ d &&& m₁ = p &&& m₁ ∧ d &&& m₂ = p &&& m₂ := by
  constructor
  · intro h
    have cut (m : Descriptor) (hm : (m₁ ||| m₂) &&& m = m) : d &&& m = p &&& m := by
      rw [← hm, ← BitVec.and_assoc, h, BitVec.and_assoc]
    exact ⟨cut m₁ (by ext; simp +contextual), cut m₂ (by ext; simp +contextual)⟩
  · rintro ⟨h₁, h₂⟩
    rw [BitVec.and_or_distrib_left, h₁, h₂, ← BitVec.and_or_distrib_left]

/-- A descriptor is what one mask keeps of it and what the others keep. -/
theorem or_of_masks (d m₁ m₂ m₃ : Descriptor) (h : m₁ ||| m₂ ||| m₃ = BitVec.allOnes 16) :
    (d &&& m₁) ||| (d &&& m₂) ||| (d &&& m₃) = d := by
  rw [← BitVec.and_or_distrib_left, ← BitVec.and_or_distrib_left, h, BitVec.and_allOnes]

theorem or_lowByte {d hi : Descriptor} (h : d &&& 0xFF00 = hi) : hi ||| (lowByte d).setWidth 16 = d := by
  rw [lowByte, lowField_setWidth, ← h, ← BitVec.and_or_distrib_left]
  exact BitVec.and_allOnes

theorem busSizeCode3_desc {d : Descriptor} (h : d &&& 0xFB00 = 0x0300) :
    (if d.getLsbD 10 then 0x0700 else 0x0300) ||| (lowByte d).setWidth 16 = d := by
  have hbit : d &&& 0x0400 = if d.getLsbD 10 then 0x0400 else 0 := BitVec.and_twoPow d 10
  refine Eq.trans ?_ (or_of_masks d 0xFB00 0x0400 (fieldMask 0 8) rfl)
  rw [lowByte, lowField_setWidth, h, hbit]
  cases d.getLsbD 10 <;> rfl

theorem edge_desc {d : Descriptor} (h : d &&& 0xFEE0 = 0x0800) :
    0x0800 ||| (if d.getLsbD 8 then 0x0100 else 0x0000) ||| (d.extractLsb' 0 5).setWidth 16 = d := by
  have hbit : d &&& 0x0100 = if d.getLsbD 8 then 0x0100 else 0 := BitVec.and_twoPow d 8
  refine Eq.trans ?_ (or_of_masks d 0xFEE0 0x0100 (fieldMask 0 5) rfl)
  rw [lowField_setWidth, h, hbit]

/-! What a row of the table gives back -/

/-- The rows of R103 lines 1, 2 and 4: each matches one descriptor. -/
def exactRows : List Row := registerRows ++ inertRows

theorem exactRow_spec : ∀ r ∈ exactRows, r ∈ opcodeTable ∧ r.mask = 0xFFFF ∧
    ∀ e, (r.build e).wellFormed = true ∧ (encode (r.build e)).desc = r.pattern := by
  intro r hr
  refine ⟨?_, ?_⟩
  · simp only [exactRows, List.mem_append] at hr
    simp only [opcodeTable, List.mem_append]
    tauto
  · have hrows : List.Forall (fun r => r.mask = 0xFFFF ∧
        ∀ e, (r.build e).wellFormed = true ∧ (encode (r.build e)).desc = r.pattern) exactRows := by
      repeat refine ⟨⟨rfl, fun _ => ⟨rfl, rfl⟩⟩, ?_⟩
      exact ⟨rfl, fun _ => ⟨rfl, rfl⟩⟩
    exact List.forall_iff_forall_mem.1 hrows r hr

theorem decode_of_exactRow {e : Event} {r : Row} (hr : r ∈ exactRows) (hd : e.desc = r.pattern) :
    decode e = r.build e := by
  obtain ⟨hmem, hmask, -⟩ := exactRow_spec r hr
  obtain ⟨k, hk⟩ := List.mem_iff_getElem?.1 hmem
  exact decode_exact hk hmask hd

theorem wellFormed_of_exact {e : Event} (h : ∃ r ∈ exactRows, r.pattern = e.desc) :
    (decode e).wellFormed = true := by
  obtain ⟨r, hr, hd⟩ := h
  obtain ⟨-, -, hspec⟩ := exactRow_spec r hr
  rw [decode_of_exactRow hr hd.symm]
  exact (hspec e).1

/-- An offset that is not unmapped has word rows of its own. -/
theorem exact_of_not_unmapped {off : Offset} (h : Config.unmapped off = false) :
    (∃ r ∈ exactRows, r.pattern = 0x0200 ||| off.setWidth 16) ∧
      ∃ r ∈ exactRows, r.pattern = 0x0600 ||| off.setWidth 16 := by
  have hrows : ∀ o ∈ Config.registerOffsets ++ Config.declaredInertOffsets,
      (∃ r ∈ exactRows, r.pattern = 0x0200 ||| o.setWidth 16) ∧
        ∃ r ∈ exactRows, r.pattern = 0x0600 ||| o.setWidth 16 := by decide +kernel
  refine hrows off ?_
  simpa [Config.unmapped, List.contains_iff_mem, or_iff_not_imp_left] using h

/-- The rows but the last: each stands for an event or for the size code 3 (R103 lines 1 to 10). -/
def namedRows : List Row := opcodeTable.take 80

/-- What a decoding is (R103): by the first matching row, and the last row takes what no other does. -/
theorem decode_cases (e : Event) :
    (∃ r ∈ namedRows, rowMatches e.desc r = true ∧ decode e = r.build e) ∨
      ((∀ r ∈ namedRows, ¬ rowMatches e.desc r = true) ∧ decode e = .otherDescriptor e.desc) := by
  have hsplit : opcodeTable = namedRows ++ opcodeTable.drop 80 := (List.take_append_drop 80 _).symm
  have hlast : opcodeTable.drop 80 = [⟨0x0000, 0x0000, fun e => .otherDescriptor e.desc⟩] := rfl
  cases hfind : namedRows.find? (rowMatches e.desc) with
  | some r =>
    refine .inl ⟨r, List.mem_of_find?_eq_some hfind, List.find?_some hfind, ?_⟩
    rw [decode, hsplit, List.find?_append, hfind, Option.some_or]
  | none =>
    refine .inr ⟨List.find?_eq_none.1 hfind, ?_⟩
    rw [decode, hsplit, List.find?_append, hfind, hlast]
    simp [rowMatches]

/-- What a row's instruction has of its event: the descriptor, and it is well formed unless a row of the same
descriptor alone comes first. -/
def GivesBack (r : Row) : Prop :=
  ∀ e, rowMatches e.desc r = true → (encode (r.build e)).desc = e.desc ∧
    ((r.build e).wellFormed = true ∨ ∃ x ∈ exactRows, x.pattern = e.desc)

theorem givesBack_of_fullMask {r : Row} (hmask : r.mask = 0xFFFF)
    (h : ∀ e, (r.build e).wellFormed = true ∧ (encode (r.build e)).desc = r.pattern) : GivesBack r := by
  intro e hm
  have hd : e.desc = r.pattern := by
    rw [rowMatches, beq_iff_eq, hmask] at hm
    exact BitVec.and_allOnes.symm.trans hm
  exact ⟨(h e).2.trans hd.symm, .inl (h e).1⟩

theorem givesBack_of_lowByte {r : Row} (hmask : r.mask = 0xFF00)
    (hdesc : ∀ e, (encode (r.build e)).desc = r.pattern ||| (lowByte e.desc).setWidth 16)
    (hwf : ∀ e, (r.build e).wellFormed = true ∨
      ∃ x ∈ exactRows, x.pattern = r.pattern ||| (lowByte e.desc).setWidth 16) : GivesBack r := by
  intro e hm
  have hlow : r.pattern ||| (lowByte e.desc).setWidth 16 = e.desc := by
    rw [rowMatches, beq_iff_eq, hmask] at hm
    exact or_lowByte hm
  exact ⟨(hdesc e).trans hlow, hlow ▸ hwf e⟩

/-- A narrow read at the offset of the Data register has a row of its own (R103 line 2). -/
theorem narrowRead_or_exact {p : Descriptor} (hp : ∃ x ∈ exactRows, x.pattern = p ||| (0x40 : Offset).setWidth 16)
    (off : Offset) : (off != 0x40) = true ∨ ∃ x ∈ exactRows, x.pattern = p ||| off.setWidth 16 := by
  by_cases h : off = 0x40
  · exact .inr (h ▸ hp)
  · exact .inl (by simpa using h)

theorem narrowRow_givesBack : ∀ r ∈ narrowRows, GivesBack r := by
  simp only [narrowRows, List.forall_mem_cons, List.not_mem_nil, false_implies, implies_true, and_true]
  refine ⟨?rd16, ?rd8, ?wr16, ?wr8⟩
  case rd16 =>
    exact givesBack_of_lowByte rfl (fun _ => rfl) fun _ => narrowRead_or_exact (by decide +kernel) _
  case rd8 =>
    exact givesBack_of_lowByte rfl (fun _ => rfl) fun _ => narrowRead_or_exact (by decide +kernel) _
  case wr16 | wr8 => exact givesBack_of_lowByte rfl (fun _ => rfl) fun _ => .inl rfl

theorem otherRow_givesBack : ∀ r ∈ otherRows.take 8, GivesBack r := by
  simp only [otherRows, List.take_succ_cons, List.take_zero, List.forall_mem_cons, List.not_mem_nil,
    false_implies, implies_true, and_true]
  refine ⟨?rdUnmapped, ?wrUnmapped, ?size3, ?edge, ?expire, ?feedv, ?feeds, ?reset⟩
  case rdUnmapped =>
    refine givesBack_of_lowByte rfl (fun _ => rfl) fun e => ?_
    cases h : Config.unmapped (lowByte e.desc) with
    | true => exact .inl h
    | false => exact .inr (exact_of_not_unmapped h).1
  case wrUnmapped =>
    refine givesBack_of_lowByte rfl (fun _ => rfl) fun e => ?_
    cases h : Config.unmapped (lowByte e.desc) with
    | true => exact .inl h
    | false => exact .inr (exact_of_not_unmapped h).2
  case size3 => exact fun e hm => ⟨busSizeCode3_desc (by simpa [rowMatches] using hm), .inl rfl⟩
  case edge => exact fun e hm => ⟨edge_desc (by simpa [rowMatches] using hm), .inl rfl⟩
  case expire | reset => exact givesBack_of_fullMask rfl fun _ => ⟨rfl, rfl⟩
  case feedv | feeds => exact givesBack_of_lowByte rfl (fun _ => rfl) fun _ => .inl rfl

theorem namedRow_givesBack {r : Row} (hr : r ∈ namedRows) : GivesBack r := by
  have hparts : namedRows = registerRows ++ narrowRows ++ inertRows ++ otherRows.take 8 := rfl
  simp only [hparts, List.mem_append] at hr
  rcases hr with ((hr | hr) | hr) | hr
  · obtain ⟨-, hmask, hspec⟩ := exactRow_spec r (List.mem_append_left _ hr)
    exact givesBack_of_fullMask hmask hspec
  · exact narrowRow_givesBack r hr
  · obtain ⟨-, hmask, hspec⟩ := exactRow_spec r (List.mem_append_right _ hr)
    exact givesBack_of_fullMask hmask hspec
  · exact otherRow_givesBack r hr

theorem encode_decode_desc (e : Event) : (encode (decode e)).desc = e.desc := by
  obtain ⟨r, hr, hm, hdec⟩ | ⟨-, hdec⟩ := decode_cases e
  · rw [hdec]
    exact (namedRow_givesBack hr e hm).1
  · rw [hdec]
    rfl

/-! Which descriptors are events -/

/-- Every bus access has a row by its size and direction (R103 lines 3, 5 and 6). -/
theorem exists_namedRow_of_bus {d : Descriptor} (h : d &&& 0xF800 = 0x0000) :
    ∃ r ∈ namedRows, rowMatches d r = true := by
  have hrows : ∀ hi : BitVec 3, ∃ r ∈ namedRows, 0xFF00 &&& r.mask = r.mask ∧
      (hi.setWidth 16 <<< 8) &&& r.mask = r.pattern := by decide +kernel
  have hhigh : d &&& 0xFF00 = (d.extractLsb' 8 3).setWidth 16 <<< 8 :=
    calc d &&& 0xFF00 = d &&& (0xF800 ||| fieldMask 8 3) := rfl
      _ = (0x0000 : Descriptor) ||| (d &&& fieldMask 8 3) := by rw [BitVec.and_or_distrib_left, h]
      _ = (d.extractLsb' 8 3).setWidth 16 <<< 8 := BitVec.zero_or.trans (extract_shiftLeft 8 3 d).symm
  obtain ⟨r, hr, hmask, hpat⟩ := hrows (d.extractLsb' 8 3)
  exact ⟨r, hr, rowMatches_of_highByte hhigh hmask hpat⟩

/-- Each other class of events has one row. -/
theorem exists_namedRow_of_event {d : Descriptor} (h : isEventDescriptor d = true) :
    ∃ r ∈ namedRows, rowMatches d r = true := by
  have row (k : Nat) {r : Row} (hr : namedRows[k]? = some r) (hm : rowMatches d r = true) :
      ∃ r ∈ namedRows, rowMatches d r = true := ⟨r, List.mem_of_getElem? hr, hm⟩
  simp only [isEventDescriptor, eventClasses, List.any_cons, List.any_nil, Bool.or_eq_true, Bool.or_false] at h
  obtain hbus | hedge | hexpire | hfeedv | hfeeds | hreset := h
  · exact exists_namedRow_of_bus (by simpa using hbus)
  · exact row 75 rfl hedge
  · exact row 76 rfl hexpire
  · exact row 77 rfl hfeedv
  · exact row 78 rfl hfeeds
  · exact row 79 rfl hreset

theorem decode_wellFormed (e : Event) : (decode e).wellFormed = true := by
  obtain ⟨r, hr, hm, hdec⟩ | ⟨hno, hdec⟩ := decode_cases e
  · obtain hwf | hexact := (namedRow_givesBack hr e hm).2
    · rwa [hdec]
    · exact wellFormed_of_exact hexact
  · rw [hdec]
    cases hev : isEventDescriptor e.desc with
    | false => simp [Instr.wellFormed, hev]
    | true =>
      obtain ⟨r, hr, hm⟩ := exists_namedRow_of_event hev
      exact absurd hm (hno r hr)

/-- Settles O2: the first matching row gives the descriptor back, and no row before it matches. -/
theorem everyEventDecodesToItsOwnDescriptor : Obligations.EveryEventDecodesToItsOwnDescriptor := by
  unfold Obligations.EveryEventDecodesToItsOwnDescriptor
  exact fun e => ⟨decode_wellFormed e, encode_decode_desc e⟩

theorem decode_eq_other_iff (e : Event) :
    (∃ d, decode e = .otherDescriptor d) ↔ isEventDescriptor e.desc = false := by
  constructor
  · rintro ⟨d, hdec⟩
    have hwf := decode_wellFormed e
    have hdesc : d = e.desc := by
      have := encode_decode_desc e
      rwa [hdec] at this
    rw [hdec, hdesc] at hwf
    simpa [Instr.wellFormed] using hwf
  · exact fun h => ⟨e.desc, decode_of_not_event h⟩

/-- The row of size code 3 is the only one with its instruction, and no row before it matches its descriptors. -/
theorem decode_eq_size3_iff (e : Event) :
    (∃ w off, decode e = .busSizeCode3 w off) ↔ e.desc &&& 0xFB00 = 0x0300 := by
  have mask_of_high {d hi : Descriptor} (hhi : hi &&& 0xFB00 = 0x0300) (h : d &&& 0xFF00 = hi) :
      d &&& 0xFB00 = 0x0300 := by rw [← hhi, ← h, BitVec.and_assoc]; rfl
  constructor
  · rintro ⟨w, off, hdec⟩
    have hdesc := encode_decode_desc e
    rw [hdec] at hdesc
    rw [← hdesc]
    cases w with
    | false => exact mask_of_high (hi := 0x0300) rfl (highByte_or 0x0300 rfl off)
    | true => exact mask_of_high (hi := 0x0700) rfl (highByte_or 0x0700 rfl off)
  · intro h
    have row74 {hi : Descriptor} (hok : onlyExcludedBefore 74 hi (fun _ => false) = true)
        (hhigh : e.desc &&& 0xFF00 = hi) : ∃ w off, decode e = .busSizeCode3 w off :=
      ⟨_, _, decode_open (fun _ => false) rfl hok hhigh (beq_iff_eq.2 h) rfl⟩
    have hdesc := busSizeCode3_desc h
    cases hw : e.desc.getLsbD 10 with
    | false =>
      rw [hw] at hdesc
      exact row74 (hi := 0x0300) (by decide +kernel) (hdesc ▸ highByte_or 0x0300 rfl (lowByte e.desc))
    | true =>
      rw [hw] at hdesc
      exact row74 (hi := 0x0700) (by decide +kernel) (hdesc ▸ highByte_or 0x0700 rfl (lowByte e.desc))

/-! The classes by their fields (R100) -/

theorem size3_iff (d : Descriptor) :
    d &&& 0xFB00 = 0x0300 ↔ d.extractLsb' 11 5 = 0 ∧ d.extractLsb' 8 2 = 3 :=
  (and_or_eq_iff d 0x0300 (fieldMask 11 5) (fieldMask 8 2)).trans
    (and_congr (and_fieldMask_eq_iff 11 5 d 0x0300) (and_fieldMask_eq_iff 8 2 d 0x0300))

/-- A mask that holds the pad bits and the class fixes both, and whatever else it holds. -/
theorem and_classMask_eq_iff (d p m : Descriptor) :
    d &&& (fieldMask 14 2 ||| fieldMask 11 3 ||| m) = p &&& (fieldMask 14 2 ||| fieldMask 11 3 ||| m) ↔
      d.extractLsb' 14 2 = p.extractLsb' 14 2 ∧ d.extractLsb' 11 3 = p.extractLsb' 11 3 ∧
        d &&& m = p &&& m := by
  rw [and_or_eq_iff, and_or_eq_iff, and_fieldMask_eq_iff, and_fieldMask_eq_iff, and_assoc]

theorem line_lt_iff (d : Descriptor) :
    d &&& fieldMask 5 3 = 0x0800 &&& fieldMask 5 3 ↔ ¬ Config.maxTrig ≤ (d.extractLsb' 0 8).toNat := by
  rw [and_fieldMask_eq_iff, ← BitVec.toNat_inj]
  simp only [BitVec.extractLsb'_toNat, Nat.shiftRight_eq_div_pow, Config.maxTrig]
  change d.toNat / 32 % 8 = 0 ↔ ¬ 32 ≤ d.toNat / 1 % 256
  omega

/-- The event classes by the fields of R100. -/
theorem isEventDescriptor_iff (d : Descriptor) :
    isEventDescriptor d = true ↔ d.extractLsb' 14 2 = 0 ∧
      (d.extractLsb' 11 3 = 0 ∨
        (d.extractLsb' 11 3 = 1 ∧ d.extractLsb' 9 2 = 0 ∧ ¬ Config.maxTrig ≤ (d.extractLsb' 0 8).toNat) ∨
        (d.extractLsb' 11 3 = 2 ∧ d.extractLsb' 0 11 = 0) ∨
        (d.extractLsb' 11 3 = 3 ∧ d.extractLsb' 8 3 = 0) ∨
        (d.extractLsb' 11 3 = 4 ∧ d.extractLsb' 8 3 = 0) ∨
        (d.extractLsb' 11 3 = 5 ∧ d.extractLsb' 0 11 = 0)) := by
  have hbus : d &&& 0xF800 = 0 ↔ d.extractLsb' 14 2 = 0 ∧ d.extractLsb' 11 3 = 0 :=
    (and_classMask_eq_iff d 0 0).trans (by simp)
  have hedge : d &&& 0xFEE0 = 0x0800 ↔ d.extractLsb' 14 2 = 0 ∧ d.extractLsb' 11 3 = 1 ∧
      d.extractLsb' 9 2 = 0 ∧ ¬ Config.maxTrig ≤ (d.extractLsb' 0 8).toNat := by
    refine (and_classMask_eq_iff d 0x0800 (fieldMask 9 2 ||| fieldMask 5 3)).trans ?_
    rw [and_or_eq_iff, and_fieldMask_eq_iff, line_lt_iff]
    rfl
  have hwhole (p : Descriptor) : d = p ↔ d.extractLsb' 14 2 = p.extractLsb' 14 2 ∧
      d.extractLsb' 11 3 = p.extractLsb' 11 3 ∧ d.extractLsb' 0 11 = p.extractLsb' 0 11 := by
    rw [← and_fieldMask_eq_iff 0 11, ← and_classMask_eq_iff]
    exact (congrArg₂ (· = ·) BitVec.and_allOnes BitVec.and_allOnes).to_iff.symm
  have hfeed (p : Descriptor) : d &&& 0xFF00 = p &&& 0xFF00 ↔ d.extractLsb' 14 2 = p.extractLsb' 14 2 ∧
      d.extractLsb' 11 3 = p.extractLsb' 11 3 ∧ d.extractLsb' 8 3 = p.extractLsb' 8 3 := by
    rw [← and_fieldMask_eq_iff 8 3, ← and_classMask_eq_iff]
    rfl
  have hall : d &&& 0xFFFF = d := BitVec.and_allOnes
  have hexpire : d = 0x1000 ↔ d.extractLsb' 14 2 = 0 ∧ d.extractLsb' 11 3 = 2 ∧ d.extractLsb' 0 11 = 0 :=
    hwhole 0x1000
  have hreset : d = 0x2800 ↔ d.extractLsb' 14 2 = 0 ∧ d.extractLsb' 11 3 = 5 ∧ d.extractLsb' 0 11 = 0 :=
    hwhole 0x2800
  have hfeedv : d &&& 0xFF00 = 0x1800 ↔ d.extractLsb' 14 2 = 0 ∧ d.extractLsb' 11 3 = 3 ∧ d.extractLsb' 8 3 = 0 :=
    hfeed 0x1800
  have hfeeds : d &&& 0xFF00 = 0x2000 ↔ d.extractLsb' 14 2 = 0 ∧ d.extractLsb' 11 3 = 4 ∧ d.extractLsb' 8 3 = 0 :=
    hfeed 0x2000
  simp only [isEventDescriptor, eventClasses, List.any_cons, List.any_nil, Bool.or_eq_true, Bool.or_false,
    beq_iff_eq, hall, hbus, hedge, hexpire, hfeedv, hfeeds, hreset, and_or_left]

/-- Settles O4: the row of size code 3 by its mask, the last row by the classes a descriptor is not in. -/
theorem refusedDescriptorsAreThoseOfNoAgent : Obligations.RefusedDescriptorsAreThoseOfNoAgent := by
  unfold Obligations.RefusedDescriptorsAreThoseOfNoAgent
  intro e
  constructor
  · rw [decode_eq_size3_iff, size3_iff]
  · rw [decode_eq_other_iff, ← Bool.not_eq_true, isEventDescriptor_iff]
    have hclass : ∀ c : BitVec 3, c = 0 ∨ c = 1 ∨ c = 2 ∨ c = 3 ∨ c = 4 ∨ c = 5 ∨ c = 6 ∨ c = 7 := by decide
    rcases hclass (e.desc.extractLsb' 11 3) with h | h | h | h | h | h | h | h <;>
      simp [h, imp_iff_not_or]

/-! The round trip (R102, R103) -/

theorem roundTrip : ∀ i : Instr, RoundTrip.Statement i
  | .rd32Isr => RoundTrip.rd32Isr | .wr32Isr v => RoundTrip.wr32Isr v | .rd32Ier => RoundTrip.rd32Ier
  | .wr32Ier v => RoundTrip.wr32Ier v | .rd32Cr => RoundTrip.rd32Cr | .wr32Cr v => RoundTrip.wr32Cr v
  | .rd32Cfgr => RoundTrip.rd32Cfgr | .wr32Cfgr v => RoundTrip.wr32Cfgr v | .rd32Smpr1 => RoundTrip.rd32Smpr1
  | .wr32Smpr1 v => RoundTrip.wr32Smpr1 v | .rd32Smpr2 => RoundTrip.rd32Smpr2
  | .wr32Smpr2 v => RoundTrip.wr32Smpr2 v | .rd32Sqr1 => RoundTrip.rd32Sqr1
  | .wr32Sqr1 v => RoundTrip.wr32Sqr1 v | .rd32Sqr2 => RoundTrip.rd32Sqr2 | .wr32Sqr2 v => RoundTrip.wr32Sqr2 v
  | .rd32Sqr3 => RoundTrip.rd32Sqr3 | .wr32Sqr3 v => RoundTrip.wr32Sqr3 v | .rd32Sqr4 => RoundTrip.rd32Sqr4
  | .wr32Sqr4 v => RoundTrip.wr32Sqr4 v | .rd32Dr => RoundTrip.rd32Dr | .wr32Dr v => RoundTrip.wr32Dr v
  | .rd16Dr => RoundTrip.rd16Dr | .rd8Dr => RoundTrip.rd8Dr | .rd16Narrow off => RoundTrip.rd16Narrow off
  | .rd8Narrow off => RoundTrip.rd8Narrow off | .wr16Narrow off v => RoundTrip.wr16Narrow off v
  | .wr8Narrow off v => RoundTrip.wr8Narrow off v | .rd32Inert10 => RoundTrip.rd32Inert10
  | .wr32Inert10 v => RoundTrip.wr32Inert10 v | .rd32Inert1C => RoundTrip.rd32Inert1C
  | .wr32Inert1C v => RoundTrip.wr32Inert1C v | .rd32Inert20 => RoundTrip.rd32Inert20
  | .wr32Inert20 v => RoundTrip.wr32Inert20 v | .rd32Inert24 => RoundTrip.rd32Inert24
  | .wr32Inert24 v => RoundTrip.wr32Inert24 v | .rd32Inert4C => RoundTrip.rd32Inert4C
  | .wr32Inert4C v => RoundTrip.wr32Inert4C v | .rd32Inert60 => RoundTrip.rd32Inert60
  | .wr32Inert60 v => RoundTrip.wr32Inert60 v | .rd32Inert64 => RoundTrip.rd32Inert64
  | .wr32Inert64 v => RoundTrip.wr32Inert64 v | .rd32Inert68 => RoundTrip.rd32Inert68
  | .wr32Inert68 v => RoundTrip.wr32Inert68 v | .rd32Inert6C => RoundTrip.rd32Inert6C
  | .wr32Inert6C v => RoundTrip.wr32Inert6C v | .rd32Inert80 => RoundTrip.rd32Inert80
  | .wr32Inert80 v => RoundTrip.wr32Inert80 v | .rd32Inert84 => RoundTrip.rd32Inert84
  | .wr32Inert84 v => RoundTrip.wr32Inert84 v | .rd32Inert88 => RoundTrip.rd32Inert88
  | .wr32Inert88 v => RoundTrip.wr32Inert88 v | .rd32Inert8C => RoundTrip.rd32Inert8C
  | .wr32Inert8C v => RoundTrip.wr32Inert8C v | .rd32InertA0 => RoundTrip.rd32InertA0
  | .wr32InertA0 v => RoundTrip.wr32InertA0 v | .rd32InertA4 => RoundTrip.rd32InertA4
  | .wr32InertA4 v => RoundTrip.wr32InertA4 v | .rd32InertB0 => RoundTrip.rd32InertB0
  | .wr32InertB0 v => RoundTrip.wr32InertB0 v | .rd32InertB4 => RoundTrip.rd32InertB4
  | .wr32InertB4 v => RoundTrip.wr32InertB4 v | .rd32InertB8 => RoundTrip.rd32InertB8
  | .wr32InertB8 v => RoundTrip.wr32InertB8 v | .rd32InertBC => RoundTrip.rd32InertBC
  | .wr32InertBC v => RoundTrip.wr32InertBC v | .rd32InertC0 => RoundTrip.rd32InertC0
  | .wr32InertC0 v => RoundTrip.wr32InertC0 v | .rd32InertC4 => RoundTrip.rd32InertC4
  | .wr32InertC4 v => RoundTrip.wr32InertC4 v | .rd32InertC8 => RoundTrip.rd32InertC8
  | .wr32InertC8 v => RoundTrip.wr32InertC8 v | .rd32Unmapped off => RoundTrip.rd32Unmapped off
  | .wr32Unmapped off v => RoundTrip.wr32Unmapped off v
  | .busSizeCode3 write off => RoundTrip.busSizeCode3 write off | .edge line level => RoundTrip.edge line level
  | .expire => RoundTrip.expire | .feedv ch value rep => RoundTrip.feedv ch value rep
  | .feeds ch values rep => RoundTrip.feeds ch values rep | .reset => RoundTrip.reset
  | .otherDescriptor desc => RoundTrip.otherDescriptor desc

/-- Settles O1: each constructor has its round trip. -/
theorem decodeEncodeAgree : Obligations.DecodeEncodeAgree := by
  unfold Obligations.DecodeEncodeAgree
  exact roundTrip

/-- Settles O3: each word is the encoding of the event the spec names. -/
theorem decodesWordsOfTheSpec : Obligations.DecodesWordsOfTheSpec := by
  unfold Obligations.DecodesWordsOfTheSpec
  exact ⟨roundTrip (.wr32Cr 0x5) rfl, roundTrip .rd16Dr rfl, roundTrip (.edge 5 true) rfl,
    roundTrip (.edge 5 false) rfl, roundTrip .expire rfl, roundTrip (.feedv 3 0x123 1) rfl,
    roundTrip (.feeds 7 (some [70, 71, 72]) 2) rfl, roundTrip .reset rfl,
    roundTrip (.rd32Unmapped 0x44) rfl, roundTrip (.wr16Narrow 0x40 0x1) rfl⟩

/-! Refusals (R122, R221) -/

theorem exec_edge (line : BitVec 5) (level : Bool) (s : State) :
    exec (.edge line level) s = execEdge line level s := rfl

/-- An edge on a line the block lacks is no event of it (R221). -/
theorem exec_edge_of_lackedLine {s : State} {line : BitVec 5} {level : Bool} (hs : s.faulted = none)
    (hline : s.params.nTrig.val ≤ line.toNat) : exec (.edge line level) s = .refused .notAnEvent := by
  rw [exec_edge, execEdge, onEvent_of_unfaulted hs]
  exact if_pos hline

/-- Settles O10: two rows refuse whatever the state, and an edge checks its line first. -/
theorem refusedDescriptorsAreRefused : Obligations.RefusedDescriptorsAreRefused := by
  unfold Obligations.RefusedDescriptorsAreRefused
  exact ⟨fun _ _ _ _ => ⟨rfl, rfl⟩, fun _ _ _ hs hline => exec_edge_of_lackedLine hs hline⟩

end Sys2Proof.Proofs.Encoding
end

section
/-! PROOFS. The words of the register bank (R104 to R113): a word as inert bits and fields at their positions, the
view of each register in that form, and the slots a Sequence-register write leaves. -/

namespace Sys2Proof.Proofs.RegisterBank
open Sys2Proof Sys2Proof.Machine

/-! A field at its position in a word -/

/-- The word that holds field `c` from bit `lo` up, and zeros. -/
def place (lo : Nat) {n : Nat} (c : BitVec n) : Word := c.setWidth 32 <<< lo

theorem getLsbD_place (lo : Nat) {n : Nat} (c : BitVec n) (i : Nat) :
    (place lo c).getLsbD i = (decide (i < 32) && decide (lo ≤ i) && c.getLsbD (i - lo)) := by
  rw [place, BitVec.getLsbD_shiftLeft, BitVec.getLsbD_setWidth]
  by_cases hlo : lo ≤ i
  · by_cases hi : i < 32
    · simp [hlo, hi, show i - lo < 32 by omega]
    · simp [hi]
  · simp [hlo, Nat.lt_of_not_le hlo]

/-- A bit above or below a field is none of it. -/
theorem getLsbD_place_outside {lo n i : Nat} (c : BitVec n) (hi : i < lo ∨ lo + n ≤ i) :
    (place lo c).getLsbD i = false := by
  rw [getLsbD_place]
  rcases hi with hi | hi
  · simp [Nat.not_le.2 hi]
  · simp [BitVec.getLsbD_of_ge c (i - lo) (by omega)]

/-- A one-bit field. -/
theorem getLsbD_place_flag {lo : Nat} (hlo : lo < 32) (b : Bool) (i : Nat) :
    (place lo (BitVec.ofBool b)).getLsbD i = (decide (i = lo) && b) := by
  rcases lt_trichotomy i lo with h | rfl | h
  · rw [getLsbD_place_outside _ (.inl h)]
    simp [h.ne]
  · rw [getLsbD_place, BitVec.getLsbD_ofBool]
    simp [hlo]
  · rw [getLsbD_place_outside _ (.inr h)]
    simp [h.ne']

/-- A field is read back at its own position. -/
theorem extract_place_self {lo n : Nat} (c : BitVec n) (h : lo + n ≤ 32) :
    (place lo c).extractLsb' lo n = c := by
  refine BitVec.eq_of_getLsbD_eq fun i hi => ?_
  rw [BitVec.getLsbD_extractLsb', getLsbD_place, Nat.add_sub_cancel_left]
  simp [hi, show lo + i < 32 by omega]

/-- A field is zero at the positions of another. -/
theorem extract_place_disjoint {lo n start len : Nat} (c : BitVec n) (h : start + len ≤ lo ∨ lo + n ≤ start) :
    (place lo c).extractLsb' start len = 0#len := by
  refine BitVec.eq_of_getLsbD_eq fun i hi => ?_
  rw [BitVec.getLsbD_extractLsb', getLsbD_place_outside c (by omega)]
  simp

/-- A field of a word, placed back, is the word cut to that field. -/
theorem place_extract (lo n : Nat) (v : Word) :
    place lo (v.extractLsb' lo n) = v &&& place lo (BitVec.allOnes n) := by
  refine BitVec.eq_of_getLsbD_eq fun i hi => ?_
  rw [BitVec.getLsbD_and, getLsbD_place, getLsbD_place, BitVec.getLsbD_extractLsb', BitVec.getLsbD_allOnes]
  by_cases hlo : lo ≤ i
  · simp [hi, hlo, Nat.add_sub_cancel' hlo, Bool.and_comm]
  · simp [hlo]

/-! Inert bits (R45) -/

/-- A storage mask has no bit of the register's fields. -/
theorem inert_bit {mask fields : Word} (h : mask &&& fields = 0) {k : Nat} (hk : fields.getLsbD k = true) :
    mask.getLsbD k = false := by
  simpa [hk] using congrArg (·.getLsbD k) h

/-- The stored inert bits are zero at the positions of a field. -/
theorem extract_inert {mask fields : Word} (h : mask &&& fields = 0) (store : Word) {start len : Nat}
    (hf : fields.extractLsb' start len = BitVec.allOnes len) :
    (store &&& mask).extractLsb' start len = 0#len := by
  have hmask : mask.extractLsb' start len = 0#len := by
    have h0 := congrArg (·.extractLsb' start len) h
    simpa [BitVec.extractLsb'_and, hf] using h0
  rw [BitVec.extractLsb'_and, hmask, BitVec.and_zero]

/-! The views as inert bits and fields (R105 to R113) -/

theorem isrView_eq (s : State) :
    isrView s = (s.isrStore &&& s.params.isrStorage) ||| place 2 (BitVec.ofBool s.eoc) |||
      place 1 (BitVec.ofBool s.eosmp) ||| place 0 (BitVec.ofBool s.adrdy) := by
  have hflags : ∀ a b c : Bool, (BitVec.ofBool a ++ BitVec.ofBool b ++ BitVec.ofBool c).setWidth 32 =
      place 2 (BitVec.ofBool a) ||| place 1 (BitVec.ofBool b) ||| place 0 (BitVec.ofBool c) := by decide
  rw [isrView, hflags, BitVec.or_assoc, BitVec.or_assoc, BitVec.or_assoc]

theorem crView_eq (s : State) :
    crView s = (s.crStore &&& s.params.crStorage) ||| place 0 (BitVec.ofBool s.enabled) := by
  rw [crView, place, BitVec.shiftLeft_zero]

theorem cfgrView_eq (s : State) :
    cfgrView s = (s.cfgrStore &&& s.params.cfgrStorage) ||| place 13 (BitVec.ofBool s.cont) ||| place 10 s.exten |||
      place 5 s.extsel ||| place 2 s.res ||| place 0 s.dmngt := rfl

theorem sqr1View_eq (s : State) :
    sqr1View s = (s.sqr1Store &&& s.params.sqr1Storage) ||| place 24 s.sq[3] ||| place 18 s.sq[2] |||
      place 12 s.sq[1] ||| place 6 s.sq[0] ||| place 0 s.l := by
  rw [place.eq_def 0, BitVec.shiftLeft_zero]
  rfl

/-- The form of Sequence registers 2 and 3: inert bits and five slots (R112). -/
def fiveSlots (inert : Word) (a b c d e : BitVec 5) : Word :=
  inert ||| place 24 e ||| place 18 d ||| place 12 c ||| place 6 b ||| place 0 a

theorem sqr2View_eq (s : State) :
    sqr2View s = fiveSlots (s.sqr2Store &&& s.params.sqr2Storage) s.sq[4] s.sq[5] s.sq[6] s.sq[7] s.sq[8] := rfl

theorem sqr3View_eq (s : State) :
    sqr3View s =
      fiveSlots (s.sqr3Store &&& s.params.sqr3Storage) s.sq[9] s.sq[10] s.sq[11] s.sq[12] s.sq[13] := rfl

theorem sqr4View_eq (s : State) :
    sqr4View s = (s.sqr4Store &&& s.params.sqr4Storage) ||| place 6 s.sq[15] ||| place 0 s.sq[14] := rfl

/-! The slots after a Sequence-register write (R146, R157, R159, R161) -/

theorem storeSqr1_getElem (v : Word) (sq : Vector (BitVec 5) 16) (i : Nat) (hi : i < 16) :
    (storeSqr1 v sq)[i] = if i < 4 then v.extractLsb' (6 * (i + 1)) 5 else sq[i] := by
  simp only [storeSqr1, Vector.getElem_set, slotOf]
  interval_cases i <;> rfl

theorem storeSqr2_getElem (v : Word) (sq : Vector (BitVec 5) 16) (i : Nat) (hi : i < 16) :
    (storeSqr2 v sq)[i] = if 4 ≤ i ∧ i < 9 then v.extractLsb' (6 * (i - 4)) 5 else sq[i] := by
  simp only [storeSqr2, Vector.getElem_set, slotOf]
  interval_cases i <;> rfl

theorem storeSqr3_getElem (v : Word) (sq : Vector (BitVec 5) 16) (i : Nat) (hi : i < 16) :
    (storeSqr3 v sq)[i] = if 9 ≤ i ∧ i < 14 then v.extractLsb' (6 * (i - 9)) 5 else sq[i] := by
  simp only [storeSqr3, Vector.getElem_set, slotOf]
  interval_cases i <;> rfl

theorem storeSqr4_getElem (v : Word) (sq : Vector (BitVec 5) 16) (i : Nat) (hi : i < 16) :
    (storeSqr4 v sq)[i] = if 14 ≤ i ∧ i < 16 then v.extractLsb' (6 * (i - 14)) 5 else sq[i] := by
  simp only [storeSqr4, Vector.getElem_set, slotOf]
  interval_cases i <;> rfl

end Sys2Proof.Proofs.RegisterBank
end

section
/-! PROOFS. Word reads of the registers (R133 to R145, R156, R158, R160): bit by bit, through the layout of each
view. -/

namespace Sys2Proof.Proofs.RegisterBank
open Sys2Proof Sys2Proof.Machine Sys2Proof.Proofs.Encoding

/-- A read of a view of the registers, whole (R77). -/
theorem read_view {s : State} (hs : s.faulted = none) (view : State → Word)
    (hview : view s.begun = view s) :
    onEvent s (fun u => .next (answerRead (.word (view u)) u)) = .next (s.answered (.word (view s))) := by
  rw [onEvent_of_unfaulted hs, hview]
  rfl

theorem exec_rd32Isr {s : State} (hs : s.faulted = none) :
    exec .rd32Isr s = .next (s.answered (.word (isrView s))) := read_view hs isrView rfl

theorem exec_rd32Ier {s : State} (hs : s.faulted = none) :
    exec .rd32Ier s = .next (s.answered (.word s.ier)) := read_view hs ierView rfl

theorem exec_rd32Cr {s : State} (hs : s.faulted = none) :
    exec .rd32Cr s = .next (s.answered (.word (crView s))) := read_view hs crView rfl

theorem exec_rd32Cfgr {s : State} (hs : s.faulted = none) :
    exec .rd32Cfgr s = .next (s.answered (.word (cfgrView s))) := read_view hs cfgrView rfl

theorem exec_rd32Smpr1 {s : State} (hs : s.faulted = none) :
    exec .rd32Smpr1 s = .next (s.answered (.word s.smpr1)) := read_view hs smpr1View rfl

theorem exec_rd32Smpr2 {s : State} (hs : s.faulted = none) :
    exec .rd32Smpr2 s = .next (s.answered (.word s.smpr2)) := read_view hs smpr2View rfl

theorem exec_rd32Sqr1 {s : State} (hs : s.faulted = none) :
    exec .rd32Sqr1 s = .next (s.answered (.word (sqr1View s))) := read_view hs sqr1View rfl

theorem exec_rd32Sqr2 {s : State} (hs : s.faulted = none) :
    exec .rd32Sqr2 s = .next (s.answered (.word (sqr2View s))) := read_view hs sqr2View rfl

theorem exec_rd32Sqr3 {s : State} (hs : s.faulted = none) :
    exec .rd32Sqr3 s = .next (s.answered (.word (sqr3View s))) := read_view hs sqr3View rfl

theorem exec_rd32Sqr4 {s : State} (hs : s.faulted = none) :
    exec .rd32Sqr4 s = .next (s.answered (.word (sqr4View s))) := read_view hs sqr4View rfl

/-- Settles O22: the views of the three registers are the stored words. -/
theorem storageReads : Obligations.StorageReads := by
  unfold Obligations.StorageReads
  exact ⟨roundTrip .rd32Ier rfl, roundTrip .rd32Smpr1 rfl, roundTrip .rd32Smpr2 rfl,
    fun s hs => ⟨exec_rd32Ier hs, exec_rd32Smpr1 hs, exec_rd32Smpr2 hs⟩⟩

/-- The bits of the Status register: the three flags, and the inert bits above (R105, R133). -/
theorem isrView_bit {s : State} (hp : s.params.Legal) (k : Nat) :
    (isrView s).getLsbD k =
      if k = 0 then s.adrdy else if k = 1 then s.eosmp else if k = 2 then s.eoc
      else s.isrStore.getLsbD k && s.params.isrStorage.getLsbD k := by
  simp (disch := decide) only [isrView_eq, BitVec.getLsbD_or, BitVec.getLsbD_and, getLsbD_place_flag]
  match k with
  | 0 => rw [inert_bit hp.isr_inert rfl]; simp
  | 1 => rw [inert_bit hp.isr_inert rfl]; simp
  | 2 => rw [inert_bit hp.isr_inert rfl]; simp
  | k + 3 => simp

/-- Settles O19: the bits of the Status register are those of its view. -/
theorem statusRead : Obligations.StatusRead := by
  unfold Obligations.StatusRead
  exact ⟨roundTrip .rd32Isr rfl, fun s hp hs => ⟨isrView s, exec_rd32Isr hs, isrView_bit hp⟩, rfl⟩

/-- The bits of the Control register: `enabled`, the command bits as zeros, and the inert bits (R107, R137). -/
theorem crView_bit {s : State} (hp : s.params.Legal) (k : Nat) :
    (crView s).getLsbD k =
      if k = 0 then s.enabled else if k = 1 ∨ k = 2 ∨ k = 31 then false
      else s.crStore.getLsbD k && s.params.crStorage.getLsbD k := by
  simp (disch := decide) only [crView_eq, BitVec.getLsbD_or, BitVec.getLsbD_and, getLsbD_place_flag]
  by_cases hfield : k = 0 ∨ k = 1 ∨ k = 2 ∨ k = 31
  · rcases hfield with rfl | rfl | rfl | rfl <;> rw [inert_bit hp.cr_inert rfl] <;> simp
  · obtain ⟨h0, hcommands⟩ := not_or.1 hfield
    simp [h0, hcommands]

/-- Settles O20: the bits of the Control register are those of its view. -/
theorem controlRead : Obligations.ControlRead := by
  unfold Obligations.ControlRead
  exact ⟨roundTrip .rd32Cr rfl, fun s hp hs => ⟨crView s, exec_rd32Cr hs, crView_bit hp⟩⟩

/-! Fields of a view: the inert bits and the other fields are zero at a field's position -/

/-- The fields of the Configuration register (R108, R139). -/
theorem cfgrView_fields {s : State} (hp : s.params.Legal) :
    (cfgrView s).extractLsb' 0 2 = s.dmngt ∧ (cfgrView s).extractLsb' 2 3 = s.res ∧
      (cfgrView s).extractLsb' 5 5 = s.extsel ∧ (cfgrView s).extractLsb' 10 2 = s.exten := by
  simp (disch := decide) only [cfgrView_eq, BitVec.extractLsb'_or, extract_inert hp.cfgr_inert,
    extract_place_self, extract_place_disjoint, BitVec.zero_or, BitVec.or_zero, and_self]

theorem cfgrView_cont {s : State} (hp : s.params.Legal) : (cfgrView s).getLsbD 13 = s.cont := by
  simp (disch := decide) only [cfgrView_eq, BitVec.getLsbD_or, BitVec.getLsbD_and, getLsbD_place_flag,
    getLsbD_place_outside]
  rw [inert_bit hp.cfgr_inert rfl]
  simp

/-- The bits of the Configuration register outside its fields. -/
theorem cfgrView_inert (s : State) {k : Nat} (hk : k = 12 ∨ 14 ≤ k) :
    (cfgrView s).getLsbD k = (s.cfgrStore.getLsbD k && s.params.cfgrStorage.getLsbD k) := by
  simp (disch := omega) only [cfgrView_eq, BitVec.getLsbD_or, BitVec.getLsbD_and, getLsbD_place_outside,
    Bool.or_false]

/-- Settles O21: the fields and the inert bits of the view. -/
theorem configurationRead : Obligations.ConfigurationRead := by
  unfold Obligations.ConfigurationRead
  refine ⟨roundTrip .rd32Cfgr rfl, fun s hp hs => ⟨cfgrView s, exec_rd32Cfgr hs, ?_⟩⟩
  obtain ⟨hdmngt, hres, hextsel, hexten⟩ := cfgrView_fields hp
  exact ⟨hdmngt, hres, hextsel, hexten, cfgrView_cont hp, fun k hk => cfgrView_inert s hk⟩

/-- The fields of Sequence register 1 (R111, R145). -/
theorem sqr1View_fields {s : State} (hp : s.params.Legal) :
    (sqr1View s).extractLsb' 0 4 = s.l ∧ (sqr1View s).extractLsb' 6 5 = s.sq[0] ∧
      (sqr1View s).extractLsb' 12 5 = s.sq[1] ∧ (sqr1View s).extractLsb' 18 5 = s.sq[2] ∧
      (sqr1View s).extractLsb' 24 5 = s.sq[3] := by
  simp (disch := decide) only [sqr1View_eq, BitVec.extractLsb'_or, extract_inert hp.sqr1_inert,
    extract_place_self, extract_place_disjoint, BitVec.zero_or, BitVec.or_zero, and_self]

theorem sqr1View_inert (s : State) {k : Nat} (hk : k = 4 ∨ k = 5 ∨ k = 11 ∨ k = 17 ∨ k = 23 ∨ 29 ≤ k) :
    (sqr1View s).getLsbD k = (s.sqr1Store.getLsbD k && s.params.sqr1Storage.getLsbD k) := by
  simp (disch := omega) only [sqr1View_eq, BitVec.getLsbD_or, BitVec.getLsbD_and, getLsbD_place_outside,
    Bool.or_false]

/-- The fields of Sequence registers 2 and 3 (R112, R156, R158). -/
theorem fiveSlots_fields {mask : Word} (hmask : mask &&& 0x1F7DF7DF = 0) (store : Word) (a b c d e : BitVec 5) :
    (fiveSlots (store &&& mask) a b c d e).extractLsb' 0 5 = a ∧
      (fiveSlots (store &&& mask) a b c d e).extractLsb' 6 5 = b ∧
      (fiveSlots (store &&& mask) a b c d e).extractLsb' 12 5 = c ∧
      (fiveSlots (store &&& mask) a b c d e).extractLsb' 18 5 = d ∧
      (fiveSlots (store &&& mask) a b c d e).extractLsb' 24 5 = e := by
  simp (disch := decide) only [fiveSlots, BitVec.extractLsb'_or, extract_inert hmask,
    extract_place_self, extract_place_disjoint, BitVec.zero_or, BitVec.or_zero, and_self]

theorem fiveSlots_inert (store mask : Word) (a b c d e : BitVec 5) {k : Nat}
    (hk : k = 5 ∨ k = 11 ∨ k = 17 ∨ k = 23 ∨ 29 ≤ k) :
    (fiveSlots (store &&& mask) a b c d e).getLsbD k = (store.getLsbD k && mask.getLsbD k) := by
  simp (disch := omega) only [fiveSlots, BitVec.getLsbD_or, BitVec.getLsbD_and, getLsbD_place_outside,
    Bool.or_false]

/-- The fields of Sequence register 4 (R113, R160). -/
theorem sqr4View_fields {s : State} (hp : s.params.Legal) :
    (sqr4View s).extractLsb' 0 5 = s.sq[14] ∧ (sqr4View s).extractLsb' 6 5 = s.sq[15] := by
  simp (disch := decide) only [sqr4View_eq, BitVec.extractLsb'_or, extract_inert hp.sqr4_inert,
    extract_place_self, extract_place_disjoint, BitVec.zero_or, BitVec.or_zero, and_self]

theorem sqr4View_inert (s : State) {k : Nat} (hk : k = 5 ∨ 11 ≤ k) :
    (sqr4View s).getLsbD k = (s.sqr4Store.getLsbD k && s.params.sqr4Storage.getLsbD k) := by
  simp (disch := omega) only [sqr4View_eq, BitVec.getLsbD_or, BitVec.getLsbD_and, getLsbD_place_outside,
    Bool.or_false]

/-- Settles O23: the fields and the inert bits of the four views. -/
theorem sequenceReads : Obligations.SequenceReads := by
  unfold Obligations.SequenceReads
  refine ⟨roundTrip .rd32Sqr1 rfl, roundTrip .rd32Sqr2 rfl, roundTrip .rd32Sqr3 rfl, roundTrip .rd32Sqr4 rfl,
    rfl, rfl, rfl, rfl, fun s hp hs => ⟨⟨_, exec_rd32Sqr1 hs, ?_⟩, ⟨_, exec_rd32Sqr2 hs, ?_⟩,
      ⟨_, exec_rd32Sqr3 hs, ?_⟩, ⟨_, exec_rd32Sqr4 hs, ?_⟩⟩⟩
  · obtain ⟨hl, h0, h1, h2, h3⟩ := sqr1View_fields hp
    exact ⟨hl, h0, h1, h2, h3, fun k hk => sqr1View_inert s hk⟩
  · obtain ⟨h4, h5, h6, h7, h8⟩ :=
      fiveSlots_fields hp.sqr2_inert s.sqr2Store s.sq[4] s.sq[5] s.sq[6] s.sq[7] s.sq[8]
    exact ⟨h4, h5, h6, h7, h8, fun k hk => fiveSlots_inert _ _ _ _ _ _ _ hk⟩
  · obtain ⟨h9, h10, h11, h12, h13⟩ :=
      fiveSlots_fields hp.sqr3_inert s.sqr3Store s.sq[9] s.sq[10] s.sq[11] s.sq[12] s.sq[13]
    exact ⟨h9, h10, h11, h12, h13, fun k hk => fiveSlots_inert _ _ _ _ _ _ _ hk⟩
  · obtain ⟨h14, h15⟩ := sqr4View_fields hp
    exact ⟨h14, h15, fun k hk => sqr4View_inert s hk⟩

end Sys2Proof.Proofs.RegisterBank
end

section
/-! PROOFS. Word writes of the registers without a command (R134 to R146, R157, R159, R161): each whole, then what
reading back returns (R155). -/

namespace Sys2Proof.Proofs.RegisterBank
open Sys2Proof Sys2Proof.Machine Sys2Proof.Proofs.Encoding Sys2Proof.Proofs.BlockState

/-! Each write, whole -/

theorem exec_wr32Isr {s : State} (hs : s.faulted = none) (v : Word) :
    exec (.wr32Isr v) s = .next { s with
      adrdy := s.adrdy && !(v.getLsbD 0 && s.params.isrW1cMask.getLsbD 0)
      eosmp := s.eosmp && !(v.getLsbD 1 && s.params.isrW1cMask.getLsbD 1)
      eoc := s.eoc && !(v.getLsbD 2 && s.params.isrW1cMask.getLsbD 2)
      isrStore := v &&& s.params.isrStorage, out := Outputs.empty } := by
  rw [exec, execWr32Isr, onEvent_of_unfaulted hs]
  simp only [clearFlags, BitVec.getLsbD_and]
  rfl

theorem exec_wr32Ier {s : State} (hs : s.faulted = none) (v : Word) :
    exec (.wr32Ier v) s = .next { s with ier := v &&& (s.params.ierStorage ||| 0x4), out := Outputs.empty } := by
  rw [exec, execWr32Ier, onEvent_of_unfaulted hs]
  rfl

theorem exec_wr32Smpr1 {s : State} (hs : s.faulted = none) (v : Word) :
    exec (.wr32Smpr1 v) s = .next { s with smpr1 := v &&& s.params.smpr1Storage, out := Outputs.empty } := by
  rw [exec, execWr32Smpr1, onEvent_of_unfaulted hs]
  rfl

theorem exec_wr32Smpr2 {s : State} (hs : s.faulted = none) (v : Word) :
    exec (.wr32Smpr2 v) s = .next { s with smpr2 := v &&& s.params.smpr2Storage, out := Outputs.empty } := by
  rw [exec, execWr32Smpr2, onEvent_of_unfaulted hs]
  rfl

theorem exec_wr32Sqr1 {s : State} (hs : s.faulted = none) (v : Word) :
    exec (.wr32Sqr1 v) s = .next { s with
      l := lengthOf v
      seqLen := if s.cursor == 0 then lengthValue (lengthOf v) else s.seqLen
      lenDirty := !(s.cursor == 0)
      sq := storeSqr1 v s.sq, sqr1Store := v &&& s.params.sqr1Storage, out := Outputs.empty } := by
  rw [exec, execWr32Sqr1, onEvent_of_unfaulted hs]
  simp only [lengthWritten_eq]
  rfl

theorem exec_wr32Sqr2 {s : State} (hs : s.faulted = none) (v : Word) :
    exec (.wr32Sqr2 v) s = .next { s with
      sq := storeSqr2 v s.sq, sqr2Store := v &&& s.params.sqr2Storage, out := Outputs.empty } := by
  rw [exec, execWr32Sqr2, onEvent_of_unfaulted hs]
  rfl

theorem exec_wr32Sqr3 {s : State} (hs : s.faulted = none) (v : Word) :
    exec (.wr32Sqr3 v) s = .next { s with
      sq := storeSqr3 v s.sq, sqr3Store := v &&& s.params.sqr3Storage, out := Outputs.empty } := by
  rw [exec, execWr32Sqr3, onEvent_of_unfaulted hs]
  rfl

theorem exec_wr32Sqr4 {s : State} (hs : s.faulted = none) (v : Word) :
    exec (.wr32Sqr4 v) s = .next { s with
      sq := storeSqr4 v s.sq, sqr4Store := v &&& s.params.sqr4Storage, out := Outputs.empty } := by
  rw [exec, execWr32Sqr4, onEvent_of_unfaulted hs]
  rfl

/-- Settles O27: the Status write, whole. -/
theorem statusWrite : Obligations.StatusWrite := by
  unfold Obligations.StatusWrite
  exact ⟨fun v => roundTrip (.wr32Isr v) rfl, fun s v hs => exec_wr32Isr hs v, rfl, rfl⟩

/-- Settles O28: the three writes, whole. -/
theorem storageWrites : Obligations.StorageWrites := by
  unfold Obligations.StorageWrites
  exact ⟨fun v => ⟨roundTrip (.wr32Ier v) rfl, roundTrip (.wr32Smpr1 v) rfl, roundTrip (.wr32Smpr2 v) rfl⟩,
    fun s v hs => ⟨exec_wr32Ier hs v, exec_wr32Smpr1 hs v, exec_wr32Smpr2 hs v⟩, rfl, rfl, rfl⟩

/-- Settles O33: the length in force by `lengthWritten_eq`, the slots by `storeSqr1_getElem`. -/
theorem sequenceLengthWrite : Obligations.SequenceLengthWrite := by
  unfold Obligations.SequenceLengthWrite
  refine ⟨fun v => roundTrip (.wr32Sqr1 v) rfl,
    fun s v hs => ⟨_, exec_wr32Sqr1 hs v, rfl, ?_, ?_, ?_, rfl, rfl⟩⟩
  · intro hcursor
    simp [hcursor, lengthOf]
  · intro hcursor
    simp [hcursor]
  · exact fun i => storeSqr1_getElem v s.sq i i.isLt

/-- Settles O34: the slots by the lemma of each register. -/
theorem sequenceSlotWrites : Obligations.SequenceSlotWrites := by
  unfold Obligations.SequenceSlotWrites
  exact ⟨fun v => ⟨roundTrip (.wr32Sqr2 v) rfl, roundTrip (.wr32Sqr3 v) rfl, roundTrip (.wr32Sqr4 v) rfl⟩,
    fun s v hs =>
      ⟨⟨_, exec_wr32Sqr2 hs v, fun i => storeSqr2_getElem v s.sq i i.isLt⟩,
        ⟨_, exec_wr32Sqr3 hs v, fun i => storeSqr3_getElem v s.sq i i.isLt⟩,
        ⟨_, exec_wr32Sqr4 hs v, fun i => storeSqr4_getElem v s.sq i i.isLt⟩⟩⟩

/-! The Configuration register (R140, R187) -/

theorem triggerModeChanged_external {old new : BitVec 2} (hnew : new ≠ 0) (s : State) :
    triggerModeChanged old new s = disarmTimer s := if_pos hnew

theorem triggerModeChanged_internal (old : BitVec 2) (s : State) :
    triggerModeChanged old 0 s =
      if old ≠ 0 ∧ s.enabled = true ∧ s.scanActive = true then armTimer s else s := by
  simp [triggerModeChanged, and_assoc]

/-- The trigger-mode procedure moves only the timer and its commands. -/
theorem triggerModeChanged_frame (old new : BitVec 2) (s : State) :
    triggerModeChanged old new s = { s with
      timer := (triggerModeChanged old new s).timer, out := (triggerModeChanged old new s).out } := by
  unfold triggerModeChanged
  split_ifs
  · rw [disarmTimer_eq]
  · rw [armTimer_eq]
  · rfl

/-- The Configuration write, whole but for the timer and its commands. -/
theorem exec_wr32Cfgr {s : State} (hs : s.faulted = none) (v : Word) :
    exec (.wr32Cfgr v) s = .next { s with
      dmngt := dmngtOf v, res := resOf v, extsel := extselOf v, exten := extenOf v, cont := contOf v
      cfgrStore := v &&& s.params.cfgrStorage
      timer := (configured v s.begun).timer, out := (configured v s.begun).out } := by
  have hframe : configured v s.begun = { s with
      dmngt := dmngtOf v, res := resOf v, extsel := extselOf v, exten := extenOf v
      timer := (configured v s.begun).timer, out := (configured v s.begun).out } := triggerModeChanged_frame ..
  rw [exec, execWr32Cfgr, onEvent_of_unfaulted hs]
  change Host.Outcome.next { configured v s.begun with
    cont := contOf v, cfgrStore := v &&& (configured v s.begun).params.cfgrStorage } = _
  rw [hframe]

/-- A Configuration write of an external mode disarms the timer. -/
theorem configured_external {v : Word} (hnew : extenOf v ≠ 0) (s : State) :
    (configured v s).timer = none ∧ (configured v s).out =
      { s.out with timer := s.out.timer ++ if s.timer.isSome then [.disarm] else [] } := by
  rw [configured, triggerModeChanged_external hnew, disarmTimer_eq]
  exact ⟨rfl, rfl⟩

/-- A Configuration write that leaves an external mode for the internal one, in scan mode, arms the timer. -/
theorem configured_arms {v : Word} {s : State} (hnew : extenOf v = 0)
    (hleaves : s.exten ≠ 0 ∧ s.enabled = true ∧ s.scanActive = true) :
    (configured v s).timer = some (s.timer.getD (nextDeadline s)) ∧ (configured v s).out =
      { s.out with timer := s.out.timer ++ if s.timer.isSome then [] else [.arm s.params.convTime] } := by
  rw [configured, hnew, triggerModeChanged_internal, if_pos (by exact hleaves), armTimer_eq]
  exact ⟨rfl, rfl⟩

/-- Any other Configuration write of the internal mode leaves the timer alone. -/
theorem configured_stays {v : Word} {s : State} (hnew : extenOf v = 0)
    (hstays : ¬(s.exten ≠ 0 ∧ s.enabled = true ∧ s.scanActive = true)) :
    (configured v s).timer = s.timer ∧ (configured v s).out = s.out := by
  rw [configured, hnew, triggerModeChanged_internal, if_neg (by exact hstays)]
  exact ⟨rfl, rfl⟩

/-- What a Configuration write of the internal mode does to the timer: it arms a disarmed one only where the block
leaves an external mode while enabled and in scan mode (R187). -/
theorem configured_internal {v : Word} (hnew : extenOf v = 0) (s : State) :
    if s.exten ≠ 0 ∧ s.enabled = true ∧ s.scanActive = true ∧ s.timer = none then
      (configured v s.begun).timer = some (s.now + s.params.convTime) ∧
        (configured v s.begun).out = { Outputs.empty with timer := [.arm s.params.convTime] }
    else (configured v s.begun).timer = s.timer ∧ (configured v s.begun).out = Outputs.empty := by
  by_cases hleaves : s.exten ≠ 0 ∧ s.enabled = true ∧ s.scanActive = true
  · obtain ⟨htimer, hout⟩ := configured_arms (s := s.begun) hnew hleaves
    obtain ⟨hexten, henabled, hscan⟩ := hleaves
    rw [htimer, hout]
    cases harmed : s.timer with
    | none =>
      rw [if_pos ⟨hexten, henabled, hscan, rfl⟩]
      simp [State.begun, Outputs.empty, nextDeadline, harmed]
    | some deadline =>
      rw [if_neg (by simp)]
      simp [State.begun, Outputs.empty, harmed]
  · rw [if_neg (by tauto)]
    exact configured_stays (s := s.begun) hnew hleaves

/-- Settles O35: the fields by the whole write, the timer by the new mode. -/
theorem configurationWrite : Obligations.ConfigurationWrite := by
  unfold Obligations.ConfigurationWrite
  refine ⟨fun v => roundTrip (.wr32Cfgr v) rfl, fun s v hs => ⟨_, exec_wr32Cfgr hs v, rfl, rfl, rfl, rfl, rfl, rfl,
    fun hnew => ?_, fun hnew => configured_internal hnew s, rfl⟩⟩
  obtain ⟨htimer, hout⟩ := configured_external hnew s.begun
  refine ⟨htimer, hout.trans ?_⟩
  cases harmed : s.timer <;> simp [State.begun, Outputs.empty, harmed]

/-! Reading back (R155) -/

/-- The write `wr` completes, and then the read `rd` answers `w` and changes nothing. -/
def WriteThenRead (s : State) (wr rd : Instr) (w : Word) : Prop :=
  ∃ t, exec wr s = .next t ∧ exec rd t = .next (t.answered (.word w))

theorem writeThenRead_of_view {s t : State} {wr rd : Instr} {view w : Word} (hwr : exec wr s = .next t)
    (hrd : exec rd t = .next (t.answered (.word view))) (hview : view = w) : WriteThenRead s wr rd w :=
  ⟨t, hwr, hview ▸ hrd⟩

theorem writeThenRead_ier {s : State} (hs : s.faulted = none) (v : Word) :
    WriteThenRead s (.wr32Ier v) .rd32Ier (v &&& (s.params.ierStorage ||| 0x4)) :=
  ⟨_, exec_wr32Ier hs v, exec_rd32Ier hs⟩

theorem writeThenRead_smpr1 {s : State} (hs : s.faulted = none) (v : Word) :
    WriteThenRead s (.wr32Smpr1 v) .rd32Smpr1 (v &&& s.params.smpr1Storage) :=
  ⟨_, exec_wr32Smpr1 hs v, exec_rd32Smpr1 hs⟩

theorem writeThenRead_smpr2 {s : State} (hs : s.faulted = none) (v : Word) :
    WriteThenRead s (.wr32Smpr2 v) .rd32Smpr2 (v &&& s.params.smpr2Storage) :=
  ⟨_, exec_wr32Smpr2 hs v, exec_rd32Smpr2 hs⟩

/-! The layout of a view, filled with the fields of `v` and its stored inert bits, is `v` under the masks -/

theorem cfgr_layout (v mask : Word) :
    (v &&& mask &&& mask) ||| place 13 (BitVec.ofBool (v.getLsbD 13)) ||| place 10 (v.extractLsb' 10 2) |||
      place 5 (v.extractLsb' 5 5) ||| place 2 (v.extractLsb' 2 3) ||| place 0 (v.extractLsb' 0 2) =
    v &&& (mask ||| 0x00002FFF) := by
  have hcont : BitVec.ofBool (v.getLsbD 13) = v.extractLsb' 13 1 := by
    refine BitVec.eq_of_getLsbD_eq fun i hi => ?_
    obtain rfl : i = 0 := by omega
    rw [BitVec.getLsbD_ofBool, BitVec.getLsbD_extractLsb']
    simp
  simp only [hcont, masked_and, place_extract, ← BitVec.and_or_distrib_left, BitVec.or_assoc]
  rfl

theorem writeThenRead_cfgr {s : State} (hs : s.faulted = none) (v : Word) :
    WriteThenRead s (.wr32Cfgr v) .rd32Cfgr (v &&& (s.params.cfgrStorage ||| 0x00002FFF)) := by
  refine writeThenRead_of_view (exec_wr32Cfgr hs v) (exec_rd32Cfgr hs) ?_
  rw [cfgrView_eq]
  exact cfgr_layout v s.params.cfgrStorage

theorem sqr1_layout (v mask : Word) :
    (v &&& mask &&& mask) ||| place 24 (v.extractLsb' 24 5) ||| place 18 (v.extractLsb' 18 5) |||
      place 12 (v.extractLsb' 12 5) ||| place 6 (v.extractLsb' 6 5) ||| place 0 (v.extractLsb' 0 4) =
    v &&& (mask ||| 0x1F7DF7CF) := by
  simp only [masked_and, place_extract, ← BitVec.and_or_distrib_left, BitVec.or_assoc]
  rfl

theorem fiveSlots_layout (v mask : Word) :
    fiveSlots (v &&& mask &&& mask) (v.extractLsb' 0 5) (v.extractLsb' 6 5) (v.extractLsb' 12 5)
      (v.extractLsb' 18 5) (v.extractLsb' 24 5) = v &&& (mask ||| 0x1F7DF7DF) := by
  simp only [fiveSlots, masked_and, place_extract, ← BitVec.and_or_distrib_left, BitVec.or_assoc]
  rfl

theorem sqr4_layout (v mask : Word) :
    (v &&& mask &&& mask) ||| place 6 (v.extractLsb' 6 5) ||| place 0 (v.extractLsb' 0 5) =
    v &&& (mask ||| 0x000007DF) := by
  simp only [masked_and, place_extract, ← BitVec.and_or_distrib_left, BitVec.or_assoc]
  rfl

theorem writeThenRead_sqr1 {s : State} (hs : s.faulted = none) (v : Word) :
    WriteThenRead s (.wr32Sqr1 v) .rd32Sqr1 (v &&& (s.params.sqr1Storage ||| 0x1F7DF7CF)) := by
  refine writeThenRead_of_view (exec_wr32Sqr1 hs v) (exec_rd32Sqr1 hs) ?_
  rw [sqr1View_eq]
  simp only [storeSqr1_getElem, lengthOf]
  exact sqr1_layout v s.params.sqr1Storage

theorem writeThenRead_sqr2 {s : State} (hs : s.faulted = none) (v : Word) :
    WriteThenRead s (.wr32Sqr2 v) .rd32Sqr2 (v &&& (s.params.sqr2Storage ||| 0x1F7DF7DF)) := by
  refine writeThenRead_of_view (exec_wr32Sqr2 hs v) (exec_rd32Sqr2 hs) ?_
  rw [sqr2View_eq]
  simp only [storeSqr2_getElem]
  exact fiveSlots_layout v s.params.sqr2Storage

theorem writeThenRead_sqr3 {s : State} (hs : s.faulted = none) (v : Word) :
    WriteThenRead s (.wr32Sqr3 v) .rd32Sqr3 (v &&& (s.params.sqr3Storage ||| 0x1F7DF7DF)) := by
  refine writeThenRead_of_view (exec_wr32Sqr3 hs v) (exec_rd32Sqr3 hs) ?_
  rw [sqr3View_eq]
  simp only [storeSqr3_getElem]
  exact fiveSlots_layout v s.params.sqr3Storage

theorem writeThenRead_sqr4 {s : State} (hs : s.faulted = none) (v : Word) :
    WriteThenRead s (.wr32Sqr4 v) .rd32Sqr4 (v &&& (s.params.sqr4Storage ||| 0x000007DF)) := by
  refine writeThenRead_of_view (exec_wr32Sqr4 hs v) (exec_rd32Sqr4 hs) ?_
  rw [sqr4View_eq]
  simp only [storeSqr4_getElem]
  exact sqr4_layout v s.params.sqr4Storage

/-- Settles O24: one lemma per register. -/
theorem readBackAfterWrite : Obligations.ReadBackAfterWrite := by
  unfold Obligations.ReadBackAfterWrite
  intro s v _ hs
  simp only [List.forall_mem_cons, List.not_mem_nil, IsEmpty.forall_iff, implies_true, and_true]
  exact ⟨writeThenRead_ier hs v, writeThenRead_cfgr hs v, writeThenRead_smpr1 hs v, writeThenRead_smpr2 hs v,
    writeThenRead_sqr1 hs v, writeThenRead_sqr2 hs v, writeThenRead_sqr3 hs v, writeThenRead_sqr4 hs v⟩

end Sys2Proof.Proofs.RegisterBank
end

section
/-! PROOFS. The Data register (R147 to R150), and the accesses without effect: declared inert offsets (R151),
unmapped words (R152), narrow accesses (R153, R154). -/

namespace Sys2Proof.Proofs.RegisterBank
open Sys2Proof Sys2Proof.Machine Sys2Proof.Laws Sys2Proof.Proofs.Encoding Sys2Proof.Proofs.BlockState
  Sys2Proof.Proofs.Scope

/-! The Data register -/

/-- A Data-register read that answers `value`, whole (R147 to R149). -/
theorem read_consumes {s : State} (hs : s.faulted = none) (value : State → ReadValue) :
    onEvent s (fun u => .next (answerRead (value u) (consumeResult u))) = .next { s with
      eoc := false, irq := false
      out := { Outputs.empty with
        readValue := some (value s.begun), lines := if s.irq then [.irq false] else [] } } := by
  rw [onEvent_of_unfaulted hs, consumeResult_eq]
  rfl

/-- Settles O26: each of the three reads consumes, and answers its part of the result. -/
theorem dataRegisterReadsConsume : Obligations.DataRegisterReadsConsume := by
  unfold Obligations.DataRegisterReadsConsume
  refine ⟨roundTrip .rd32Dr rfl, roundTrip .rd16Dr rfl, roundTrip .rd8Dr rfl, fun s hs => ?_⟩
  simp only [List.forall_mem_cons, List.not_mem_nil, IsEmpty.forall_iff, implies_true, and_true]
  exact ⟨read_consumes hs fun u => .word u.latchedResult,
    read_consumes hs fun u => .half (u.latchedResult.extractLsb' 0 16),
    read_consumes hs fun u => .byte (u.latchedResult.extractLsb' 0 8)⟩

theorem exec_wr16Narrow {s : State} (hs : s.faulted = none) (off : Offset) (v : Half) :
    exec (.wr16Narrow off v) s = .next (s.logged [.narrowAccess off 2 .write]) := by
  rw [exec, execWr16Narrow, onEvent_of_unfaulted hs]
  rfl

theorem exec_wr8Narrow {s : State} (hs : s.faulted = none) (off : Offset) (v : Byte) :
    exec (.wr8Narrow off v) s = .next (s.logged [.narrowAccess off 1 .write]) := by
  rw [exec, execWr8Narrow, onEvent_of_unfaulted hs]
  rfl

/-- Settles O29: the word write is empty, the narrow writes are those of any offset. -/
theorem dataRegisterWritesIgnored : Obligations.DataRegisterWritesIgnored := by
  unfold Obligations.DataRegisterWritesIgnored
  exact ⟨fun v => roundTrip (.wr32Dr v) rfl,
    fun s _ h b hs => ⟨onEvent_of_unfaulted hs _, exec_wr16Narrow hs 0x40 h, exec_wr8Narrow hs 0x40 b⟩⟩

/-! Narrow accesses -/

/-- A narrow read, whole: it answers `v`, a zero, and logs the access (R153). -/
theorem narrowRead_eq {s : State} (hs : s.faulted = none) (off : Offset) (bytes : Nat) (v : ReadValue) :
    onEvent s (fun u => .next (answerRead v (narrowAccess off bytes .read u))) = .next { s with
      out := { Outputs.empty with readValue := some v, diags := [.narrowAccess off bytes .read] } } := by
  rw [onEvent_of_unfaulted hs]
  rfl

/-- A narrow write decodes by the row of its width, whatever its offset and value. -/
theorem decode_wr16Narrow (off : Offset) (v : Word) :
    decode { desc := 0x0500 ||| off.setWidth 16, val := v } = .wr16Narrow off (v.extractLsb' 0 16) := by
  have hrow := decode_open (e := { desc := 0x0500 ||| off.setWidth 16, val := v }) (hi := 0x0500) (k := 26)
    (fun _ => false) rfl (by decide +kernel) (highByte_or 0x0500 rfl off)
    (rowMatches_of_highByte (highByte_or 0x0500 rfl off) rfl rfl) rfl
  exact hrow.trans (congrArg₂ Instr.wr16Narrow (lowByte_or 0x0500 rfl off)
    (BitVec.setWidth_eq_extractLsb' (by decide)))

theorem decode_wr8Narrow (off : Offset) (v : Word) :
    decode { desc := 0x0400 ||| off.setWidth 16, val := v } = .wr8Narrow off (v.extractLsb' 0 8) := by
  have hrow := decode_open (e := { desc := 0x0400 ||| off.setWidth 16, val := v }) (hi := 0x0400) (k := 27)
    (fun _ => false) rfl (by decide +kernel) (highByte_or 0x0400 rfl off)
    (rowMatches_of_highByte (highByte_or 0x0400 rfl off) rfl rfl) rfl
  exact hrow.trans (congrArg₂ Instr.wr8Narrow (lowByte_or 0x0400 rfl off)
    (BitVec.setWidth_eq_extractLsb' (by decide)))

/-- Settles O32: a narrow access decodes by the row of its width, and its effect is the log entry. -/
theorem narrowAccessesHaveNoEffect : Obligations.NarrowAccessesHaveNoEffect := by
  unfold Obligations.NarrowAccessesHaveNoEffect
  refine fun off v => ⟨fun hoff => ⟨?_, ?_⟩, decode_wr16Narrow off v, decode_wr8Narrow off v, fun s hs =>
    ⟨narrowRead_eq hs off 2 (.half 0), narrowRead_eq hs off 1 (.byte 0), exec_wr16Narrow hs off,
      exec_wr8Narrow hs off⟩⟩
  · exact roundTrip (.rd16Narrow off) (bne_iff_ne.2 hoff)
  · exact roundTrip (.rd8Narrow off) (bne_iff_ne.2 hoff)

/-! Word accesses where no register stands -/

theorem unnamedAccess_of_inert {s : State} {off : Offset} (hoff : off ∈ s.params.inertOffsets) (d : Diag) :
    unnamedAccess off d s = s := if_pos (List.contains_iff_mem.2 hoff)

theorem unnamedAccess_of_unmapped {s : State} {off : Offset} (hoff : off ∉ s.params.inertOffsets) (d : Diag) :
    unnamedAccess off d s = raiseDiag d s := if_neg (mt List.contains_iff_mem.1 hoff)

theorem unnamedRead_of_inert {s : State} {off : Offset} (hs : s.faulted = none) (hoff : off ∈ s.params.inertOffsets) :
    unnamedRead off s = .next (s.answered (.word 0)) := by
  rw [unnamedRead, onEvent_of_unfaulted hs, unnamedAccess_of_inert (s := s.begun) hoff]
  rfl

theorem unnamedWrite_of_inert {s : State} {off : Offset} (hs : s.faulted = none)
    (hoff : off ∈ s.params.inertOffsets) (v : Word) : unnamedWrite off v s = .next s.begun := by
  rw [unnamedWrite, onEvent_of_unfaulted hs, unnamedAccess_of_inert (s := s.begun) hoff]

theorem unnamedRead_of_unmapped {s : State} {off : Offset} (hs : s.faulted = none)
    (hoff : off ∉ s.params.inertOffsets) : unnamedRead off s = .next { s with
      out := { Outputs.empty with readValue := some (.word 0), diags := [.unmappedRead off] } } := by
  rw [unnamedRead, onEvent_of_unfaulted hs, unnamedAccess_of_unmapped (s := s.begun) hoff]
  rfl

theorem unnamedWrite_of_unmapped {s : State} {off : Offset} (hs : s.faulted = none)
    (hoff : off ∉ s.params.inertOffsets) (v : Word) :
    unnamedWrite off v s = .next (s.logged [.unmappedWrite off]) := by
  rw [unnamedWrite, onEvent_of_unfaulted hs, unnamedAccess_of_unmapped (s := s.begun) hoff]
  rfl

/-- The instruction of an inert row is the general access at the row's offset (R151). -/
theorem inertRow_exec : ∀ r ∈ inertRows, ∀ e s, exec (r.build e) s =
    if r.pattern.getLsbD 10 then unnamedWrite (lowByte r.pattern) e.val s else unnamedRead (lowByte r.pattern) s := by
  have hrows : List.Forall (fun r : Row => ∀ e s, exec (r.build e) s = if r.pattern.getLsbD 10 then
      unnamedWrite (lowByte r.pattern) e.val s else unnamedRead (lowByte r.pattern) s) inertRows := by
    repeat refine ⟨fun _ _ => rfl, ?_⟩
    exact fun _ _ => rfl
  exact List.forall_iff_forall_mem.1 hrows

/-- Each offset of the bound set has its two inert rows. -/
theorem inertRows_of_declared : ∀ off ∈ Config.declaredInertOffsets,
    (∃ r ∈ inertRows, r.pattern = 0x0200 ||| off.setWidth 16) ∧
      ∃ r ∈ inertRows, r.pattern = 0x0600 ||| off.setWidth 16 := by
  decide +kernel

/-- What an event of an inert row does. -/
theorem exec_decode_of_inertRow {e : Event} (h : ∃ r ∈ inertRows, r.pattern = e.desc) (s : State) :
    exec (decode e) s =
      if e.desc.getLsbD 10 then unnamedWrite (lowByte e.desc) e.val s else unnamedRead (lowByte e.desc) s := by
  obtain ⟨r, hr, hd⟩ := h
  rw [decode_of_exactRow (List.mem_append_right _ hr) hd.symm, inertRow_exec r hr, hd]

/-- An offset where no register stands is unmapped or of the bound set (R103 lines 4 and 5). -/
theorem unmapped_or_declared {off : Offset} (hoff : off ∉ Config.registerOffsets) :
    Config.unmapped off = true ∨ off ∈ Config.declaredInertOffsets := by
  by_cases h : off ∈ Config.declaredInertOffsets
  · exact .inr h
  · exact .inl (by simp [Config.unmapped, hoff, h])

/-- A word read where no register stands is the general one, whichever row decodes it. -/
theorem exec_decode_wordRead {off : Offset} (hoff : off ∉ Config.registerOffsets) (s : State) :
    exec (decode { desc := 0x0200 ||| off.setWidth 16 }) s = unnamedRead off s := by
  rcases unmapped_or_declared hoff with h | h
  · exact congrArg (exec · s) (roundTrip (.rd32Unmapped off) h)
  · rw [exec_decode_of_inertRow (inertRows_of_declared off h).1, writeBit_or 0x0200 rfl off,
      lowByte_or 0x0200 rfl off]
    rfl

/-- A word write where no register stands is the general one, whichever row decodes it. -/
theorem exec_decode_wordWrite {off : Offset} (hoff : off ∉ Config.registerOffsets) (v : Word) (s : State) :
    exec (decode { desc := 0x0600 ||| off.setWidth 16, val := v }) s = unnamedWrite off v s := by
  rcases unmapped_or_declared hoff with h | h
  · exact congrArg (exec · s) (roundTrip (.wr32Unmapped off v) h)
  · rw [exec_decode_of_inertRow (inertRows_of_declared off h).2, writeBit_or 0x0600 rfl off,
      lowByte_or 0x0600 rfl off]
    rfl

/-- What O30 says of one offset of the table: its two words are the encodings of its own instructions. -/
theorem inertAccess_of_encode {off : Offset} {rd wr : Instr} {v : Word}
    (hrd : encode rd = { desc := 0x0200 ||| off.setWidth 16 }) (hrdwf : rd.wellFormed = true)
    (hwr : encode wr = { desc := 0x0600 ||| off.setWidth 16, val := v }) (hwrwf : wr.wellFormed = true)
    (hoff : off ∈ Config.declaredInertOffsets) :
    decode { desc := 0x0200 ||| off.setWidth 16 } = rd ∧
      decode { desc := 0x0600 ||| off.setWidth 16, val := v } = wr ∧ off ∈ Params.bound.inertOffsets ∧
      ∀ s : State, s.faulted = none → off ∈ s.params.inertOffsets →
        exec rd s = .next (s.answered (.word 0)) ∧ exec wr s = .next s.begun := by
  have hrd := hrd ▸ roundTrip rd hrdwf
  have hwr := hwr ▸ roundTrip wr hwrwf
  have hunnamed := (declaredInert_unnamed_slot off hoff).1
  refine ⟨hrd, hwr, hoff, fun s hs hinert => ⟨?_, ?_⟩⟩
  · rw [← hrd, exec_decode_wordRead hunnamed, unnamedRead_of_inert hs hinert]
  · rw [← hwr, exec_decode_wordWrite hunnamed, unnamedWrite_of_inert hs hinert]

/-- Settles O30: `inertAccess_of_encode` at each offset of the table. -/
theorem declaredInertAccesses : Obligations.DeclaredInertAccesses := by
  unfold Obligations.DeclaredInertAccesses
  refine ⟨fun v => ?_, fun s off v hs hoff => ⟨unnamedRead_of_inert hs hoff, unnamedWrite_of_inert hs hoff v⟩⟩
  simp only [List.forall_mem_cons, List.not_mem_nil, IsEmpty.forall_iff, implies_true, and_true]
  repeat refine ⟨inertAccess_of_encode rfl rfl rfl rfl (by decide), ?_⟩
  exact inertAccess_of_encode rfl rfl rfl rfl (by decide)

/-- Every register stands at a word slot (R21). -/
theorem registerOffset_slot : ∀ off ∈ Config.registerOffsets, off.toNat % 4 = 0 := by decide

/-- Settles O31: an access where no register stands, at an offset the parameters do not declare. -/
theorem unmappedWordAccesses : Obligations.UnmappedWordAccesses := by
  unfold Obligations.UnmappedWordAccesses
  refine ⟨fun p off hp hoff => ⟨mt (registerOffset_slot off) hoff, mt (hp.inert_slots off) hoff⟩, bound_legal,
    fun off v hreg hinert => ?_, fun s off v hs hreg hinert => ⟨?_, ?_⟩⟩
  · have hunmapped : Config.unmapped off = true := (unmapped_or_declared hreg).resolve_right hinert
    exact ⟨roundTrip (.rd32Unmapped off) hunmapped, roundTrip (.wr32Unmapped off v) hunmapped⟩
  · rw [exec_decode_wordRead hreg, unnamedRead_of_unmapped hs hinert]
  · rw [exec_decode_wordWrite hreg, unnamedWrite_of_unmapped hs hinert]

end Sys2Proof.Proofs.RegisterBank
end

section
/-! PROOFS. The Control register (R138): the write through its ADEN part, when it completes, and its commands one
after the other (R132). -/

namespace Sys2Proof.Proofs.RegisterBank
open Sys2Proof Sys2Proof.Machine Sys2Proof.Proofs.Encoding Sys2Proof.Proofs.BlockState

/-- The ADEN part of a Control write (R138, R183). -/
def enablePart (v : Word) (s : State) : Result := if v.getLsbD 0 then enableWrite s else .next s

/-- The ADDIS part (R138, R184). -/
def disablePart (v : Word) (s : State) : State := if v.getLsbD 1 then disableWrite s else s

/-- The ADSTART part (R138, R185). -/
def startPart (v : Word) (s : State) : State := if v.getLsbD 2 then startWrite s else s

/-- A Control write is its ADEN part and the rest. -/
theorem exec_wr32Cr {s : State} (hs : s.faulted = none) (v : Word) :
    exec (.wr32Cr v) s = andThen (enablePart v s.begun) fun u => .next (controlAfterEnable v u) := by
  rw [exec, execWr32Cr, onEvent_of_unfaulted hs]
  refine congrArg (andThen (enablePart v s.begun)) (funext fun u => ?_)
  unfold controlAfterEnable
  cases v.getLsbD addisBit <;> cases v.getLsbD adstartBit <;> rfl

theorem unfaulted_of_exec_wr32Cr {s t : State} {v : Word} (h : exec (.wr32Cr v) s = .next t) :
    s.faulted = none := by
  rw [exec] at h
  exact (onEvent_eq_next_iff.1 h).1

/-- A Control write without ADEN always completes. -/
theorem exec_wr32Cr_of_noEnable {s : State} (hs : s.faulted = none) {v : Word} (hv : v.getLsbD 0 = false) :
    exec (.wr32Cr v) s = .next (controlAfterEnable v s.begun) := by
  rw [exec_wr32Cr hs, enablePart, hv]
  rfl

/-- The rest of a Control write: its ADDIS part, its ADSTART part and its inert bits. -/
theorem controlAfterEnable_eq (v : Word) (s : State) :
    controlAfterEnable v s = storeControl v (startPart v (disablePart v s)) := by
  unfold controlAfterEnable startPart disablePart
  cases v.getLsbD 1 <;> cases v.getLsbD 2 <;> rfl

theorem disablePart_of_clear {v : Word} (hv : v.getLsbD 1 = false) (s : State) : disablePart v s = s := by
  simp only [disablePart, hv, Bool.false_eq_true, if_false]

theorem startPart_of_clear {v : Word} (hv : v.getLsbD 2 = false) (s : State) : startPart v s = s := by
  simp only [startPart, hv, Bool.false_eq_true, if_false]

/-- Settles O36: neither ADEN nor a later command has a part. -/
theorem controlWriteWithoutCommands : Obligations.ControlWriteWithoutCommands := by
  unfold Obligations.ControlWriteWithoutCommands
  refine ⟨fun v => roundTrip (.wr32Cr v) rfl, fun s v hs h0 h1 h2 => ?_⟩
  rw [exec_wr32Cr_of_noEnable hs h0, controlAfterEnable_eq, disablePart_of_clear h1,
    startPart_of_clear h2, storeControl_eq]
  rfl

/-- An enable-write completes unless it selects a slot that names no channel (R183, R189). -/
theorem enableWrite_completes {s : State}
    (h : s.enabled = false → s.seqLen ≠ 0 → s.sq[0].toNat < s.params.nCh.val) :
    ∃ t, enableWrite s = .next t := by
  unfold enableWrite
  cases hen : s.enabled with
  | true => exact ⟨s, rfl⟩
  | false =>
    by_cases hlen : s.seqLen = 0
    · exact ⟨_, if_pos hlen⟩
    · exact ⟨_, (if_neg hlen).trans (selectChannel_eq_next_iff.2 ⟨h hen hlen, rfl⟩)⟩

/-- Settles O42: only the ADEN part can stop the write. -/
theorem controlWriteCompletes : Obligations.ControlWriteCompletes := by
  unfold Obligations.ControlWriteCompletes
  intro s v hs h
  have henable : ∃ u, enablePart v s.begun = .next u := by
    unfold enablePart
    split
    · next h0 => exact enableWrite_completes (h h0)
    · exact ⟨_, rfl⟩
  obtain ⟨u, hu⟩ := henable
  exact ⟨_, by rw [exec_wr32Cr hs, hu, andThen_next]⟩

/-! Commands one after the other -/

/-- `s` is `t` but for the inert Control bits and the outputs: the timer commands and diagnostics of `s` are those of
`o` and then those of `t`. -/
def Resumes (o : Outputs) (s t : State) : Prop :=
  ∃ x p, s = { t with crStore := x, out := p } ∧ p.timer = o.timer ++ t.out.timer ∧
    p.diags = o.diags ++ t.out.diags

theorem Resumes.refl (s : State) : Resumes Outputs.empty s s := ⟨s.crStore, s.out, rfl, rfl, rfl⟩

theorem Resumes.timer {o : Outputs} {s t : State} (h : Resumes o s t) :
    s.out.timer = o.timer ++ t.out.timer := by
  obtain ⟨x, p, rfl, htimer, -⟩ := h
  exact htimer

theorem Resumes.diags {o : Outputs} {s t : State} (h : Resumes o s t) :
    s.out.diags = o.diags ++ t.out.diags := by
  obtain ⟨x, p, rfl, -, hdiags⟩ := h
  exact hdiags

/-- A step ends by storing the inert bits, and the next begins without outputs. -/
theorem Resumes.nextStep {o : Outputs} {s t : State} (h : Resumes o s t) (v : Word) :
    Resumes s.out s (storeControl v t).begun := by
  obtain ⟨x, p, rfl, -, -⟩ := h
  rw [storeControl_eq]
  exact ⟨x, p, rfl, (List.append_nil _).symm, (List.append_nil _).symm⟩

theorem Resumes.disablePart {o : Outputs} {s t : State} (h : Resumes o s t) (v : Word) :
    Resumes o (disablePart v s) (disablePart v t) := by
  unfold RegisterBank.disablePart
  split
  · obtain ⟨x, p, rfl, htimer, hdiags⟩ := h
    unfold disableWrite
    dsimp only
    split
    · simp only [disarmTimer_eq, applyLength_eq]
      exact ⟨x, _, rfl, by simp [htimer], hdiags⟩
    · exact ⟨x, p, rfl, htimer, hdiags⟩
  · exact h

theorem Resumes.startPart {o : Outputs} {s t : State} (h : Resumes o s t) (v : Word) :
    Resumes o (startPart v s) (startPart v t) := by
  unfold RegisterBank.startPart
  split
  · obtain ⟨x, p, rfl, htimer, hdiags⟩ := h
    unfold startWrite
    dsimp only
    split_ifs
    · simp only [armTimer_eq]
      exact ⟨x, _, rfl, by simp [htimer], hdiags⟩
    · exact ⟨x, p, rfl, htimer, hdiags⟩
    · exact ⟨x, _, rfl, htimer, by simp [raiseDiag, hdiags]⟩
  · exact h

/-! What the parts of a Control write leave alone -/

@[simp] theorem storeControl_faulted (v : Word) (s : State) : (storeControl v s).faulted = s.faulted := by
  rw [storeControl_eq]

@[simp] theorem storeControl_out (v : Word) (s : State) : (storeControl v s).out = s.out := by
  rw [storeControl_eq]

theorem enablePart_keeps {v : Word} {s t : State} (h : enablePart v s = .next t) :
    t.faulted = s.faulted ∧ t.params = s.params := by
  unfold enablePart at h
  split at h
  · obtain rfl | rfl | ⟨-, -, -, rfl⟩ := enableWrite_cases h <;> exact ⟨rfl, rfl⟩
  · cases h
    exact ⟨rfl, rfl⟩

theorem disablePart_keeps (v : Word) (s : State) :
    (disablePart v s).faulted = s.faulted ∧ (disablePart v s).params = s.params := by
  unfold disablePart disableWrite
  split_ifs <;> simp

theorem startPart_params (v : Word) (s : State) : (startPart v s).params = s.params := by
  unfold startPart startWrite
  split_ifs <;> simp

/-- The bits of a word under a mask that keeps a bit, or that drops it. -/
theorem getLsbD_and_of_kept {mask : Word} {k : Nat} (hk : mask.getLsbD k = true) (v : Word) :
    (v &&& mask).getLsbD k = v.getLsbD k := by
  rw [BitVec.getLsbD_and, hk, Bool.and_true]

theorem getLsbD_and_of_dropped {mask : Word} {k : Nat} (hk : mask.getLsbD k = false) (v : Word) :
    (v &&& mask).getLsbD k = false := by
  rw [BitVec.getLsbD_and, hk, Bool.and_false]

/-! The three writes -/

/-- Writing bit 0 alone is the ADEN part. -/
theorem exec_wr32Cr_enableOnly {s u : State} (hs : s.faulted = none) {v : Word}
    (hu : enablePart v s.begun = .next u) :
    exec (.wr32Cr (v &&& 0x1)) s = .next (storeControl (v &&& 0x1) u) := by
  have hpart : enablePart (v &&& 0x1) s.begun = enablePart v s.begun := by
    rw [enablePart, enablePart, getLsbD_and_of_kept rfl]
  rw [exec_wr32Cr hs, hpart, hu, andThen_next, controlAfterEnable_eq,
    disablePart_of_clear (getLsbD_and_of_dropped rfl v), startPart_of_clear (getLsbD_and_of_dropped rfl v)]

/-- Writing bit 1 alone is the ADDIS part. -/
theorem exec_wr32Cr_disableOnly {s : State} (hs : s.faulted = none) (v : Word) :
    exec (.wr32Cr (v &&& 0x2)) s = .next (storeControl (v &&& 0x2) (disablePart v s.begun)) := by
  rw [exec_wr32Cr_of_noEnable hs (getLsbD_and_of_dropped rfl v), controlAfterEnable_eq,
    startPart_of_clear (getLsbD_and_of_dropped rfl v), disablePart, getLsbD_and_of_kept rfl, disablePart]

/-- Writing the other bits is the ADSTART part, with the inert bits. -/
theorem exec_wr32Cr_rest {s : State} (hs : s.faulted = none) (v : Word) :
    exec (.wr32Cr (v &&& 0xFFFFFFFC)) s = .next (storeControl (v &&& 0xFFFFFFFC) (startPart v s.begun)) := by
  rw [exec_wr32Cr_of_noEnable hs (getLsbD_and_of_dropped rfl v), controlAfterEnable_eq,
    disablePart_of_clear (getLsbD_and_of_dropped rfl v), startPart, getLsbD_and_of_kept rfl, startPart]

/-- The stored inert bits are none of bits 0 and 1. -/
theorem stored_without_commands {p : Params} (hp : p.Legal) (v : Word) :
    v &&& 0xFFFFFFFC &&& p.crStorage = v &&& p.crStorage := by
  have hbits : ∀ k < 32, (0xFFFFFFFC : Word).getLsbD k = true ∨ (0x80000007 : Word).getLsbD k = true := by decide
  refine BitVec.eq_of_getLsbD_eq fun k hk => ?_
  simp only [BitVec.getLsbD_and]
  rcases hbits k hk with hkept | hcommand
  · rw [hkept, Bool.and_true]
  · rw [inert_bit hp.cr_inert hcommand]
    simp only [Bool.and_false]

/-- The one write and the last of the three store the same inert bits. -/
theorem Resumes.storeControl {o : Outputs} {s t : State} (h : Resumes o s t) (hp : s.params.Legal) (v : Word) :
    storeControl v s = { storeControl (v &&& 0xFFFFFFFC) t with out := s.out } := by
  obtain ⟨x, p, rfl, -, -⟩ := h
  rw [storeControl_eq, storeControl_eq]
  dsimp only
  rw [stored_without_commands hp]

/-- Settles O41: each of the three steps resumes where the one write stands at the same point. -/
theorem controlCommandsInBitOrder : Obligations.ControlCommandsInBitOrder := by
  unfold Obligations.ControlCommandsInBitOrder
  intro s t v hp ht
  have hs : s.faulted = none := unfaulted_of_exec_wr32Cr ht
  rw [exec_wr32Cr hs] at ht
  obtain ⟨u, hu, ht⟩ := andThen_eq_next_iff.1 ht
  obtain rfl : storeControl v (startPart v (disablePart v u)) = t :=
    (controlAfterEnable_eq v u).symm.trans (Host.Outcome.next.inj ht)
  obtain ⟨hufault, huparams⟩ := enablePart_keeps hu
  have hafault : (storeControl (v &&& 0x1) u).faulted = none := by
    rw [storeControl_faulted, hufault]
    exact hs
  have hbfault : (storeControl (v &&& 0x2)
      (disablePart v (storeControl (v &&& 0x1) u).begun)).faulted = none := by
    rw [storeControl_faulted, (disablePart_keeps v _).1]
    exact hafault
  have hdisabled := ((Resumes.refl u).nextStep (v &&& 0x1)).disablePart v
  have hstarted := (hdisabled.nextStep (v &&& 0x2)).startPart v
  have hparams : (startPart v (disablePart v u)).params.Legal := by
    rw [startPart_params, (disablePart_keeps v u).2, huparams]
    exact hp
  refine ⟨_, _, _, exec_wr32Cr_enableOnly hs hu, exec_wr32Cr_disableOnly hafault v, exec_wr32Cr_rest hbfault v,
    ?_, ?_, ?_⟩
  · rw [storeControl_out]
    exact hstarted.storeControl hparams v
  · simp only [storeControl_out]
    rw [hstarted.timer, hdisabled.timer]
  · simp only [storeControl_out]
    rw [hstarted.diags, hdisabled.diags]

end Sys2Proof.Proofs.RegisterBank
end

section
/-! PROOFS. The procedures a Control write triggers (R183 to R186): what each command does in each state, and the
writes that carry one command alone. -/

namespace Sys2Proof.Proofs.Converter
open Sys2Proof Sys2Proof.Machine Sys2Proof.Proofs.BlockState Sys2Proof.Proofs.RegisterBank

/-! EnableWrite (R183) -/

theorem enableWrite_of_enabled {s : State} (hen : s.enabled = true) : enableWrite s = .next s := if_pos hen

theorem enableWrite_of_empty {s : State} (hen : s.enabled = false) (hlen : s.seqLen = 0) :
    enableWrite s = .next (raiseDiag .enableEmptySequence s) := by
  simp [enableWrite, hen, hlen]

/-- An enable-write that takes effect selects position 0 (R183, R189). -/
theorem enableWrite_selects {s : State} (hen : s.enabled = false) (hlen : s.seqLen ≠ 0) :
    enableWrite s = selectChannel 0 { s with enabled := true, adrdy := true } := by
  simp [enableWrite, hen, hlen]

/-- A Control write with ADEN begins with the enable-write. -/
theorem exec_wr32Cr_of_enable {s : State} (hs : s.faulted = none) {v : Word} (h0 : v.getLsbD 0 = true) :
    exec (.wr32Cr v) s = andThen (enableWrite s.begun) fun u => .next (controlAfterEnable v u) := by
  rw [exec_wr32Cr hs, enablePart, if_pos h0]

/-- After its ADEN part, a write without ADDIS and ADSTART stores the inert bits. -/
theorem controlAfterEnable_of_noCommand {v : Word} (h1 : v.getLsbD 1 = false) (h2 : v.getLsbD 2 = false)
    (s : State) : controlAfterEnable v s = { s with crStore := v &&& s.params.crStorage } := by
  rw [controlAfterEnable_eq, disablePart_of_clear h1, startPart_of_clear h2, storeControl_eq]

/-! DisableWrite (R184) -/

/-- The timer command of a disable-write that takes effect (R184, R237). -/
theorem disableWrite_out {s : State} (hen : s.enabled = true) :
    (disableWrite s).out =
      { s.out with timer := s.out.timer ++ if s.timer.isSome then [.disarm] else [] } := by
  simp [disableWrite, hen, applyLength_eq, disarmTimer_eq]

/-- A Control write of ADDIS alone is the disable-write. -/
theorem exec_wr32Cr_disableAlone {s : State} (hs : s.faulted = none) {v : Word} (h0 : v.getLsbD 0 = false)
    (h1 : v.getLsbD 1 = true) (h2 : v.getLsbD 2 = false) :
    exec (.wr32Cr v) s = .next (storeControl v (disableWrite s.begun)) := by
  rw [exec_wr32Cr_of_noEnable hs h0, controlAfterEnable_eq, startPart_of_clear h2, disablePart, if_pos h1]

/-! StartWrite (R185) -/

theorem startWrite_of_disabled {s : State} (hen : s.enabled = false) :
    startWrite s = raiseDiag .startWhileDisabled s := by
  simp [startWrite, hen]

theorem armTimer_of_armed {s : State} (h : s.timer.isSome = true) : armTimer s = s := by
  obtain ⟨d, hd⟩ := Option.isSome_iff_exists.1 h
  simp only [armTimer, hd]

theorem armTimer_of_disarmed {s : State} (h : s.timer = none) :
    armTimer s = commandTimer (.arm s.params.convTime) { s with timer := some (nextDeadline s) } := by
  simp only [armTimer, h]

/-- In an external mode, and where the timer runs already, a start-write only sets scan mode (R185, R236). -/
theorem startWrite_of_running {s : State} (hen : s.enabled = true) (h : s.exten ≠ 0 ∨ s.timer.isSome = true) :
    startWrite s = { s with scanActive := true } := by
  rw [startWrite, if_pos hen]
  split
  · next hext => exact armTimer_of_armed (h.resolve_left fun hne => hne hext)
  · rfl

/-- In internal mode a start-write arms a disarmed timer (R185, R236). -/
theorem startWrite_of_disarmed {s : State} (hen : s.enabled = true) (hext : s.exten = 0) (ht : s.timer = none) :
    startWrite s =
      commandTimer (.arm s.params.convTime) { s with scanActive := true, timer := some (nextDeadline s) } := by
  rw [startWrite, if_pos hen, if_pos hext]
  exact armTimer_of_disarmed ht

/-- A Control write of ADSTART alone is the start-write. -/
theorem exec_wr32Cr_startAlone {s : State} (hs : s.faulted = none) {v : Word} (h0 : v.getLsbD 0 = false)
    (h1 : v.getLsbD 1 = false) (h2 : v.getLsbD 2 = true) :
    exec (.wr32Cr v) s = .next (storeControl v (startWrite s.begun)) := by
  rw [exec_wr32Cr_of_noEnable hs h0, controlAfterEnable_eq, disablePart_of_clear h1, startPart, if_pos h2]

/-! CalibrationWrite (R186) -/

theorem startPart_faulted (v : Word) (s : State) : (startPart v s).faulted = s.faulted := by
  unfold startPart startWrite
  split_ifs <;> simp

/-- A Control write keeps the parameters and leaves no fault behind. -/
theorem exec_wr32Cr_keeps {s t : State} {v : Word} (h : exec (.wr32Cr v) s = .next t) :
    t.faulted = none ∧ t.params = s.params := by
  have hs : s.faulted = none := unfaulted_of_exec_wr32Cr h
  rw [exec_wr32Cr hs] at h
  obtain ⟨u, hu, h⟩ := andThen_eq_next_iff.1 h
  obtain ⟨hufault, huparams⟩ := enablePart_keeps hu
  obtain ⟨hdfault, hdparams⟩ := disablePart_keeps v u
  cases h
  rw [controlAfterEnable_eq, storeControl_eq]
  exact ⟨(startPart_faulted v _).trans (hdfault.trans (hufault.trans hs)),
    (startPart_params v _).trans (hdparams.trans huparams)⟩

/-- The calibration bit is none of the stored bits (R45, R186). -/
theorem stored_or_calibration {p : Params} (hp : p.Legal) (v : Word) :
    (v ||| 0x80000000) &&& p.crStorage = v &&& p.crStorage := by
  have hbits : ∀ k < 32, (0x80000000 : Word).getLsbD k = true → (0x80000007 : Word).getLsbD k = true := by decide
  refine BitVec.eq_of_getLsbD_eq fun k hk => ?_
  simp only [BitVec.getLsbD_and, BitVec.getLsbD_or]
  cases hcal : (0x80000000 : Word).getLsbD k with
  | false => rw [Bool.or_false]
  | true => rw [inert_bit hp.cr_inert (hbits k hk hcal), Bool.and_false, Bool.and_false]

/-- The calibration bit is none of the command bits that a write acts on (R107, R186). -/
theorem getLsbD_or_calibration (v : Word) {k : Nat} (hk : k < 31) :
    (v ||| 0x80000000).getLsbD k = v.getLsbD k := by
  have hbits : ∀ k < 31, (0x80000000 : Word).getLsbD k = false := by decide
  rw [BitVec.getLsbD_or, hbits k hk, Bool.or_false]

/-- Two Control words with the same commands and the same stored bits answer the same. -/
theorem exec_wr32Cr_congr {v w : Word} {s : State} (h : ∀ k < 3, v.getLsbD k = w.getLsbD k)
    (hstore : v &&& s.params.crStorage = w &&& s.params.crStorage) :
    exec (.wr32Cr v) s = exec (.wr32Cr w) s := by
  cases hs : s.faulted with
  | some f => simp only [exec, execWr32Cr, onEvent, hs]
  | none =>
    have henable : enablePart v s.begun = enablePart w s.begun := by
      rw [enablePart, enablePart, h 0 (by decide)]
    rw [exec_wr32Cr hs, exec_wr32Cr hs, henable]
    cases hu : enablePart w s.begun with
    | fault x => rfl
    | refused x => rfl
    | next u =>
      have hparams : (startPart w (disablePart w u)).params = s.params :=
        (startPart_params w _).trans ((disablePart_keeps w u).2.trans (enablePart_keeps hu).2)
      have hcommands : startPart v (disablePart v u) = startPart w (disablePart w u) := by
        simp only [startPart, disablePart, h 1 (by decide), h 2 (by decide)]
      rw [andThen_next, andThen_next, controlAfterEnable_eq, controlAfterEnable_eq, hcommands, storeControl_eq,
        storeControl_eq, hparams, hstore]

end Sys2Proof.Proofs.Converter

/-! The obligations on the four commands stand in a namespace of their own: three of them have the name of the
procedure they are about. -/

namespace Sys2Proof.Proofs.ControlCommands
open Sys2Proof Sys2Proof.Machine Sys2Proof.Proofs.BlockState Sys2Proof.Proofs.RegisterBank
open Sys2Proof.Proofs.Converter

/-- Settles O37: the calibration bit is no command and no stored bit, and it reads as zero. -/
theorem calibrationBitDoesNothing : Obligations.CalibrationBitDoesNothing := by
  unfold Obligations.CalibrationBitDoesNothing
  intro s v hp
  constructor
  · exact exec_wr32Cr_congr (fun k hk => getLsbD_or_calibration v (by omega)) (stored_or_calibration hp v)
  · intro t ht
    obtain ⟨htfault, htparams⟩ := exec_wr32Cr_keeps ht
    exact ⟨crView t, exec_rd32Cr htfault, crView_bit (htparams ▸ hp) 31⟩

/-- Settles O38: the three outcomes of the enable-write, and the fault of its selection. -/
theorem enableWrite : Obligations.EnableWrite := by
  unfold Obligations.EnableWrite
  constructor
  · intro s v hs h0 hen hlen hslot
    rw [exec_wr32Cr_of_enable hs h0, enableWrite_selects (s := s.begun) hen hlen,
      selectChannel_eq_fault_iff.2 ⟨hslot, rfl⟩, andThen_fault]
    rfl
  · intro s v hs h0 h1 h2
    rw [exec_wr32Cr_of_enable hs h0]
    refine ⟨fun hen => ?_, fun hen hlen => ?_, fun hen hlen hslot => ⟨_, channelAt_slot_val s.sq[0], ?_⟩⟩
    · rw [enableWrite_of_enabled (s := s.begun) hen, andThen_next, controlAfterEnable_of_noCommand h1 h2]
      rfl
    · rw [enableWrite_of_empty (s := s.begun) hen hlen, andThen_next, controlAfterEnable_of_noCommand h1 h2]
      rfl
    · rw [enableWrite_selects (s := s.begun) hen hlen, selectChannel_eq_next_iff.2 ⟨hslot, rfl⟩, andThen_next,
        controlAfterEnable_of_noCommand h1 h2]
      rfl

/-- Settles O39: the disable-write of a disabled and of an enabled block. -/
theorem disableWrite : Obligations.DisableWrite := by
  unfold Obligations.DisableWrite
  intro s v hs h0 h1 h2
  rw [exec_wr32Cr_disableAlone hs h0 h1 h2, storeControl_eq]
  refine ⟨fun hen => ?_, fun hen => ⟨if s.lenDirty then lengthValue s.l else s.seqLen, ?_, ?_⟩⟩
  · rw [disableWrite_of_disabled (s := s.begun) hen]
    rfl
  · split <;> simp
  · have hcommand : (if s.timer = none then [] else [TimerCommand.disarm]) =
        if s.timer.isSome then [.disarm] else [] := by
      cases s.timer <;> rfl
    rw [hcommand, disableWrite_of_enabled (s := s.begun) hen, disableWrite_out (s := s.begun) hen]
    rfl

/-- Settles O40: the start-write of a disabled block, of one that runs, and of one with a disarmed timer. -/
theorem startWrite : Obligations.StartWrite := by
  unfold Obligations.StartWrite
  intro s v hs h0 h1 h2
  rw [exec_wr32Cr_startAlone hs h0 h1 h2, storeControl_eq]
  refine ⟨fun hen => ?_, fun hen hrun => ?_, fun hen hext ht => ?_⟩
  · rw [startWrite_of_disabled (s := s.begun) hen]
    rfl
  · rw [startWrite_of_running (s := s.begun) hen hrun]
    rfl
  · rw [startWrite_of_disarmed (s := s.begun) hen hext ht]
    rfl

end Sys2Proof.Proofs.ControlCommands
end

section
/-! PROOFS. Which events raise the interrupt line (R30, R193, R275). -/

namespace Sys2Proof.Proofs.Converter
open Sys2Proof Sys2Proof.Machine Sys2Proof.Proofs.BlockState

/-! The operations that leave the line alone -/

theorem enableWrite_irq {s t : State} (h : t = s ∨ enableWrite s = .next t) : t.irq = s.irq := by
  obtain rfl | h := h
  · rfl
  · obtain rfl | rfl | ⟨-, -, -, rfl⟩ := enableWrite_cases h <;> rfl

@[simp] theorem disableWrite_irq (s : State) : (disableWrite s).irq = s.irq := by
  unfold disableWrite; split <;> simp

@[simp] theorem startWrite_irq (s : State) : (startWrite s).irq = s.irq := by
  unfold startWrite; split_ifs <;> simp

@[simp] theorem triggerModeChanged_irq (old new : BitVec 2) (s : State) :
    (triggerModeChanged old new s).irq = s.irq := by
  unfold triggerModeChanged; split_ifs <;> simp

@[simp] theorem controlAfterEnable_irq (v : Word) (s : State) : (controlAfterEnable v s).irq = s.irq := by
  rw [controlAfterEnable, storeControl_eq]
  cases v.getLsbD addisBit <;> cases v.getLsbD adstartBit <;> simp

@[simp] theorem configured_irq (v : Word) (s : State) : (configured v s).irq = s.irq := by simp [configured]

/-! Completions -/

/-- `t` has the line of `s`, or EOCIE, the same in both, has let it rise (R193). -/
def RaisedByEocie (s t : State) : Prop :=
  t.ier = s.ier ∧ (t.irq = true → s.irq = true ∨ s.ier.getLsbD 2 = true)

/-- A completion raises the line with EOCIE set only (R193). -/
theorem complete_raisedByEocie {s t : State} (h : complete s = .next t) : RaisedByEocie s t := by
  obtain ⟨c, -, -, -, -, -, rfl⟩ := complete_eq_next_iff_completed.1 h
  refine ⟨rfl, fun hirq => ?_⟩
  simp only [completed, eocInterruptEnabled, Bool.or_eq_true, Bool.and_eq_true] at hirq
  exact hirq.imp_right And.right

/-- So does a drain, completion by completion (R224). -/
theorem drain_raisedByEocie {n : Nat} {s t : State} (h : drain n s = .next t) : RaisedByEocie s t := by
  refine drain_induction (P := RaisedByEocie) (fun _ => ⟨rfl, .inl⟩) ?_ n s t h
  rintro s t u hst ⟨hier, hirq⟩
  obtain ⟨hier₀, hirq₀⟩ := complete_raisedByEocie hst
  exact ⟨hier.trans hier₀, fun hu => (hirq hu).elim hirq₀ fun heocie => .inr (hier₀ ▸ heocie)⟩

/-- Settles O54: an expiry and a drain raise the line by EOCIE, every other effect leaves it or lowers it. -/
theorem interruptRisesOnlyInCompletion : Obligations.InterruptRisesOnlyInCompletion := by
  unfold Obligations.InterruptRisesOnlyInCompletion
  intro i s t h hlow hhigh
  have hrise : t.irq ≠ s.irq := by simp [hlow, hhigh]
  cases effect_of_exec h with
  | expire htimer ht =>
    obtain ⟨-, hirq⟩ := complete_raisedByEocie ht
    exact ⟨(hirq hhigh).resolve_left (Bool.eq_false_iff.1 hlow), .inl rfl⟩
  | edge line level hext ht =>
    obtain ⟨-, hirq⟩ := drain_raisedByEocie ht
    exact ⟨(hirq hhigh).resolve_left (Bool.eq_false_iff.1 hlow), .inr ⟨line, level, rfl, hext⟩⟩
  | control v hu => exact absurd ((controlAfterEnable_irq v _).trans (enableWrite_irq hu)) hrise
  | configuration v => exact absurd (configured_irq v s.begun) hrise
  | sequence1 v hu => subst hu; exact absurd (lengthWritten_irq _) hrise
  | dataRead v hi => rw [consumeResult_eq] at hhigh; exact absurd hhigh Bool.false_ne_true
  | reset => rw [lowerIrq_eq] at hhigh; exact absurd hhigh Bool.false_ne_true
  | _ => exact absurd rfl hrise

end Sys2Proof.Proofs.Converter
end

section
/-! PROOFS. A completion (R190 to R196, R254): what it pops, what its conditions mean, where it selects, and the one
an expiry brings (R238). -/

namespace Sys2Proof.Proofs.Converter
open Sys2Proof Sys2Proof.Machine Sys2Proof.Proofs.BlockState

/-! A channel's move (R254) -/

theorem popChannel_of_unfed {x : Channel} (h : x.fed = false) : popChannel x = x := by
  simp [popChannel, h]

/-- Before the last sample of a pass the position moves on. -/
theorem popChannel_of_inside {x : Channel} (hf : x.fed = true) (h : x.pos + 1 < x.data.length) :
    popChannel x = { x with pos := x.pos + 1 } := by
  simp [popChannel, hf, h]

/-- The last sample of an endless pass. -/
theorem popChannel_of_forever {x : Channel} (hf : x.fed = true) (h : x.pos + 1 = x.data.length)
    (hp : x.passesLeft = .forever) : popChannel x = { x with pos := 0 } := by
  simp [popChannel, hf, h, hp]

/-- The last sample of a pass that is not the last. -/
theorem popChannel_of_passLeft {x : Channel} (hf : x.fed = true) (h : x.pos + 1 = x.data.length) {n : Nat}
    (hp : x.passesLeft = .finite (n + 2)) :
    popChannel x = { x with pos := 0, passesLeft := .finite (n + 1) } := by
  simp [popChannel, hf, h, hp]

/-- The last sample of the last pass stays (R254). -/
theorem popChannel_of_lastPass {x : Channel} (hf : x.fed = true) (h : x.pos + 1 = x.data.length)
    (hp : x.passesLeft = .finite 1) : popChannel x = x := by
  simp [popChannel, hf, h, hp]

/-- What a pop does to a fed channel, by its position and its passes (R254). -/
theorem popChannel_of_fed {x : Channel} (hf : x.fed = true) :
    (x.pos + 1 < x.data.length → popChannel x = { x with pos := x.pos + 1 }) ∧
      (x.pos + 1 = x.data.length →
        (x.passesLeft = .forever → popChannel x = { x with pos := 0 }) ∧
        (∀ n, x.passesLeft = .finite (n + 2) →
          popChannel x = { x with pos := 0, passesLeft := .finite (n + 1) }) ∧
        (x.passesLeft = .finite 1 → popChannel x = x)) :=
  ⟨popChannel_of_inside hf, fun h =>
    ⟨popChannel_of_forever hf h, fun _ => popChannel_of_passLeft hf h, popChannel_of_lastPass hf h⟩⟩

theorem popState_chan_self (c : Fin Config.maxCh) (s : State) :
    (popState c s).chan[c] = popChannel s.chan[c] := by
  simp [popState]

theorem popState_chan_ne {c d : Fin Config.maxCh} (h : d ≠ c) (s : State) :
    (popState c s).chan[d] = s.chan[d] := by
  have hval : c.val ≠ d.val := fun hcd => h (Fin.ext hcd.symm)
  simp [popState, Vector.getElem_set_ne _ _ hval]

/-! What a pop yields (R254, R261) -/

/-- A fed channel yields its next sample, and nothing is drawn. -/
theorem pop_of_sample {c : Fin Config.maxCh} {s : State} {v : Word} (hf : (s.chan[c]).fed = true)
    (hv : (s.chan[c]).data[(s.chan[c]).pos]? = some v) :
    popValue c s = v ∧ (popState c s).draws = s.draws := by
  have hnext : nextSample s.chan[c] = some v := (if_pos hf).trans hv
  simp only [popValue, popState, popDraws, hnext, Option.isNone_some, Bool.false_and, Bool.false_eq_true, if_false,
    and_self]

theorem nextSample_of_unfed {x : Channel} (h : x.fed = false) : nextSample x = none := by
  simp [nextSample, h]

/-- An unfed channel yields the value the parameters fix, and nothing is drawn. -/
theorem pop_of_fixed {c : Fin Config.maxCh} {s : State} {v : Word} (hf : (s.chan[c]).fed = false)
    (hv : s.params.unfed = some v) : popValue c s = v ∧ (popState c s).draws = s.draws := by
  simp only [popValue, unfedValue, popState, popDraws, nextSample_of_unfed hf, hv, Option.isNone_some, Bool.and_false,
    Bool.false_eq_true, if_false, and_self]

/-- An unfed channel yields a fresh draw where the parameters fix no value. -/
theorem pop_of_drawn {c : Fin Config.maxCh} {s : State} (hf : (s.chan[c]).fed = false)
    (hv : s.params.unfed = none) :
    popValue c s = Config.unfed s.draws ∧ (popState c s).draws = s.draws + 1 := by
  simp only [popValue, unfedValue, popState, popDraws, nextSample_of_unfed hf, hv, Option.isNone_none, Bool.and_self,
    if_true, and_self]

/-! The conditions of a completion (R190, R191, R195) -/

theorem atLast_iff {s : State} : atLast s = true ↔ s.cursor.val + 1 = s.seqLen.val := by
  simp [atLast]

theorem endOfConversion_iff {s : State} :
    endOfConversion s = true ↔ s.scanActive = false ∨ s.cursor.val + 1 = s.seqLen.val := by
  cases h : s.scanActive <;> simp [endOfConversion, h, atLast_iff]

/-- In internal mode the timer is armed again in continuous mode and in mid-scan (R195). -/
theorem rearms_iff {s : State} (hext : s.exten = 0) :
    rearms s = true ↔ s.cont = true ∨ (s.scanActive = true ∧ s.cursor.val + 1 ≠ s.seqLen.val) := by
  have hlast : atLast s = false ↔ s.cursor.val + 1 ≠ s.seqLen.val := by
    rw [← Bool.not_eq_true, atLast_iff]
  simp [rearms, midScan, hext, hlast]

/-- The cursor advance as a remainder (R194). -/
theorem advanceCursor_cursor_mod {s : State} (hlen : s.seqLen ≠ 0) :
    (advanceCursor s).cursor.val = (s.cursor.val + 1) % s.seqLen.val := by
  have hpos : 0 < s.seqLen.val := Nat.pos_of_ne_zero fun h0 => hlen (Fin.ext h0)
  have hlt := Nat.mod_lt (s.cursor.val + 1) hpos
  exact Nat.mod_eq_of_lt (by have := s.seqLen.isLt; omega)

/-! A completion whole, or its fault (R189, R190) -/

/-- Inside R190's precondition a completion faults where the next slot names no channel. -/
theorem complete_of_unnamedSlot {s : State} {c : Fin Config.maxCh} (hc : s.currentChannel = some c)
    (hen : s.enabled = true) (hlen : s.seqLen ≠ 0) (ht : s.timer = none)
    (hslot : s.params.nCh.val ≤ s.sq[(advanceCursor s).cursor].toNat) :
    complete s = .fault (.channelOutOfRange (advanceCursor s).cursor s.sq[(advanceCursor s).cursor]) := by
  rw [complete_of_precondition hc hen hlen ht, nextConversion, finishConversion_eq, applyLength_eq]
  exact andThen_eq_fault_iff.2 (.inl (selectChannel_eq_fault_iff.2 ⟨hslot, rfl⟩))

/-- The lines a completion moves: the DMA pulse, then the interrupt (R192, R193). -/
theorem completed_lines (c d : Fin Config.maxCh) (s : State) :
    (completed c d s).out.lines =
      s.out.lines ++ (if s.params.dmaEnables s.dmngt then [.dmaReq true, .dmaReq false] else []) ++
        (if endOfConversion s = true ∧ s.ier.getLsbD 2 = true ∧ s.irq = false then [.irq true] else []) := by
  have hdue : (endOfConversion s && eocInterruptEnabled s && !s.irq) = true ↔
      endOfConversion s = true ∧ s.ier.getLsbD 2 = true ∧ s.irq = false := by
    simp only [eocInterruptEnabled, Bool.and_eq_true, Bool.not_eq_true', and_assoc]
  exact congrArg (_ ++ ·) (if_congr hdue rfl rfl)

/-- The length in force after a completion (R196). -/
theorem completed_seqLen_val (c d : Fin Config.maxCh) (s : State) :
    (completed c d s).seqLen.val =
      if s.lenDirty = true ∧ (advanceCursor s).cursor = 0 then s.l.toNat + 1 else s.seqLen.val := by
  rw [completed, apply_ite Fin.val, lengthValue_val]
  simp only [Bool.and_eq_true, beq_iff_eq]

/-- The timer after a completion, and its command (R195, R236). -/
theorem completed_timer (c d : Fin Config.maxCh) {s : State} (hext : s.exten = 0) :
    if s.cont = true ∨ (s.scanActive = true ∧ s.cursor.val + 1 ≠ s.seqLen.val) then
      (completed c d s).timer = some (s.now + s.params.convTime) ∧
        (completed c d s).out.timer = s.out.timer ++ [.arm s.params.convTime]
    else (completed c d s).timer = none ∧ (completed c d s).out.timer = s.out.timer ++ [] := by
  split
  · next h =>
    have hrearm := (rearms_iff hext).2 h
    exact ⟨if_pos hrearm, congrArg (_ ++ ·) (if_pos hrearm)⟩
  · next h =>
    have hrearm := mt (rearms_iff hext).1 h
    exact ⟨if_neg hrearm, congrArg (_ ++ ·) (if_neg hrearm)⟩

/-! The expiry (R238) -/

/-- The state in which an expiry completes a conversion: no outputs yet, and the timer consumed (R238). -/
def expiring (s : State) : State := { s.begun with timer := none }

/-- At its deadline an expiry is a completion. -/
theorem exec_expire_of_due {s : State} (hs : s.faulted = none) (ht : s.timer = some s.now) :
    exec .expire s = complete (expiring s) := by
  rw [exec, execExpire, onEvent_of_unfaulted hs, expiring]
  simp only [State.begun, ht, if_true]

/-- An enabled block has a sequence (R32 item 1). -/
theorem seqLen_ne_zero_of_enabled {s : State} (hs : s.Inv) (hen : s.enabled = true) : s.seqLen ≠ 0 := by
  have hlen := hs.length_of_enabled hen
  intro h0
  simp [h0] at hlen

/-- Settles O48: the expiry is a completion, which faults at the next slot or is `completed`, field by field. -/
theorem expireCompletesOneConversion : Obligations.ExpireCompletesOneConversion := by
  unfold Obligations.ExpireCompletesOneConversion
  intro s c nxt hs hunfaulted ht hc hnxt
  obtain ⟨hen, hext, -, -⟩ := inv_of_armed hs ht
  have hlen : s.seqLen ≠ 0 := seqLen_ne_zero_of_enabled hs hen
  have hcursor : s.cursor.val < s.seqLen.val := hs.cursor_lt (hs.length_of_enabled hen)
  obtain rfl : (advanceCursor (expiring s)).cursor = nxt :=
    Fin.ext ((advanceCursor_cursor_val (s := expiring s) hcursor).trans hnxt.symm)
  rw [exec_expire_of_due hunfaulted ht]
  refine ⟨complete_of_unnamedSlot (s := expiring s) hc hen hlen rfl, fun hslot => ⟨_,
    complete_eq_next_iff_completed.2 ⟨c, hc, hen, hlen, rfl, hslot, rfl⟩, ?_⟩⟩
  have hchan := popState_chan_self c (expiring s)
  refine ⟨fun v hf hv => ?_, fun hf => ⟨hchan.trans (popChannel_of_unfed hf), fun u hu => ?_, fun hnone => ?_⟩,
    fun d hd => popState_chan_ne hd _, hchan, fun hf => ?_, endOfConversion_iff, rfl, rfl,
    completed_lines c _ (expiring s), rfl, completed_seqLen_val c _ (expiring s), rfl,
    congrArg some (channelAt_slot_val _), completed_timer c _ (s := expiring s) hext, rfl, rfl, rfl, ?_⟩
  · obtain ⟨hvalue, hdraws⟩ := pop_of_sample (s := expiring s) hf hv
    exact ⟨congrArg (· &&& _) hvalue, hdraws⟩
  · obtain ⟨hvalue, hdraws⟩ := pop_of_fixed (s := expiring s) hf hu
    exact ⟨congrArg (· &&& _) hvalue, hdraws⟩
  · obtain ⟨hvalue, hdraws⟩ := pop_of_drawn (s := expiring s) hf hnone
    exact ⟨congrArg (· &&& _) hvalue, hdraws⟩
  · simp only [completed, hchan]
    exact popChannel_of_fed hf
  · simp only [completed, expiring, State.begun, hs.dmaReq_low, ite_self]

end Sys2Proof.Proofs.Converter
end

section
/-! PROOFS. A continuous run (R194, R201, R240): its expiries, each `T_CONV` after the one before, convert the
positions of the sequence in turn. -/

namespace Sys2Proof.Proofs.Converter
open Sys2Proof Sys2Proof.Machine Sys2Proof.Proofs.BlockState Sys2Proof.Proofs.Scope Sys2Proof.Proofs.Encoding

/-- The delivery of an expiry `T_CONV` after the delivery before it (R238, R240). -/
def expiryTick (p : Params) : Delivery := { elapsed := p.convTime, event := { desc := 0x1000 } }

theorem decode_expiryTick (p : Params) : decode (expiryTick p).event = .expire := roundTrip .expire rfl

/-- One step more is a step at the end of the run. -/
theorem stepTimes_succ_last (n : Nat) (s : State) : stepTimes (n + 1) s = andThen (stepTimes n s) step := by
  induction n generalizing s with
  | zero =>
    change andThen (step s) (stepTimes 0) = step s
    cases step s <;> rfl
  | succ n ih =>
    rw [stepTimes, stepTimes.eq_def (n + 1)]
    cases hstep : step s with
    | next u => exact ih u
    | fault x => rfl
    | refused x => rfl

/-- `t` is the state a continuous run from `s` has reached after `n` completions: the cursor at `n mod k`, the timer
armed for completion `n` (counted from 0), and the invariants of R32. -/
structure RunReaches (s : State) (n : Nat) (t : State) : Prop where
  inv : t.Inv
  unfaulted : t.faulted = none
  continuous : t.cont = true
  no_pending_length : t.lenDirty = false
  params : t.params = s.params
  sq : t.sq = s.sq
  seqLen : t.seqLen = s.seqLen
  now : t.now = s.now + n * s.params.convTime
  timer : t.timer = some (s.now + (n + 1) * s.params.convTime)
  cursor : t.cursor.val = n % s.seqLen.val
  channel : t.currentChannel.map (·.val) = some s.sq[t.cursor].toNat
  eoc : 0 < n → (t.eoc = true ↔ t.cursor = 0)

/-- The state in which an expiry delivered `T_CONV` after `t` completes a conversion. -/
def ticked (rest : List Delivery) (t : State) : State :=
  expiring { t with inbox := rest, now := t.now + t.params.convTime }

/-- An expiry delivered at its deadline is a completion at that time. -/
theorem step_of_expiryTick {t : State} {rest : List Delivery} (hunfaulted : t.faulted = none)
    (hin : t.inbox = expiryTick t.params :: rest) (ht : t.timer = some (t.now + t.params.convTime)) :
    step t = complete (ticked rest t) := by
  have htime : ∀ deadline, t.timer = some deadline → t.now ≤ deadline →
      t.now + t.params.convTime ≤ deadline :=
    fun deadline hd _ => (Option.some.inj (ht.symm.trans hd)).le
  rw [step_of_inTime hin htime, decode_expiryTick]
  exact exec_expire_of_due hunfaulted ht

/-- With no length pending a completion leaves the length in force (R196). -/
theorem completed_of_noPendingLength {s : State} (h : s.lenDirty = false) (c d : Fin Config.maxCh) :
    (completed c d s).seqLen = s.seqLen ∧ (completed c d s).lenDirty = false := by
  simp only [completed, h, Bool.false_and, Bool.false_eq_true, if_false, and_self]

/-- In scan mode a completion sets `eoc` exactly if the cursor wraps to 0 (R191, R194). -/
theorem endOfConversion_iff_wraps {s : State} (hscan : s.scanActive = true) (hcur : s.cursor.val < s.seqLen.val) :
    endOfConversion s = true ↔ (advanceCursor s).cursor = 0 := by
  rw [endOfConversion_iff, Fin.ext_iff, advanceCursor_cursor_val hcur, hscan]
  simp

section
variable {s t : State} {n : Nat}

theorem RunReaches.deadline (h : RunReaches s n t) : t.timer = some (t.now + t.params.convTime) := by
  rw [h.timer, h.now, h.params, Nat.succ_mul, Nat.add_assoc]

theorem RunReaches.cursor_lt (h : RunReaches s n t) : t.cursor.val < t.seqLen.val := by
  obtain ⟨hen, -, -, -⟩ := inv_of_armed h.inv h.timer
  exact h.inv.cursor_lt (h.inv.length_of_enabled hen)

theorem RunReaches.seqLen_ne_zero (h : RunReaches s n t) : t.seqLen ≠ 0 := by
  obtain ⟨hen, -, -, -⟩ := inv_of_armed h.inv h.timer
  exact seqLen_ne_zero_of_enabled h.inv hen

/-- The expiry after `n` completions selects position `(n + 1) mod k` (R194). -/
theorem RunReaches.nextPosition (h : RunReaches s n t) (rest : List Delivery) :
    (advanceCursor (ticked rest t)).cursor.val = (n + 1) % s.seqLen.val := by
  have hmod : (advanceCursor (ticked rest t)).cursor.val = (t.cursor.val + 1) % t.seqLen.val :=
    advanceCursor_cursor_mod h.seqLen_ne_zero
  rw [hmod, h.cursor, h.seqLen, Nat.mod_add_mod]

/-- The slot of that position names a channel (R303). -/
theorem RunReaches.nextSlot_named (h : RunReaches s n t) (hslots : s.SlotsNamed) (rest : List Delivery) :
    t.sq[(advanceCursor (ticked rest t)).cursor].toNat < t.params.nCh.val := by
  have hpos : 0 < s.seqLen.val := h.seqLen ▸ Nat.zero_lt_of_lt h.cursor_lt
  rw [h.sq, h.params]
  exact hslots _ (.inl (h.nextPosition rest ▸ Nat.mod_lt _ hpos))

/-- The next expiry of a continuous run completes. -/
theorem RunReaches.step_eq (h : RunReaches s n t) (hslots : s.SlotsNamed) {rest : List Delivery}
    (hin : t.inbox = expiryTick s.params :: rest) :
    ∃ c, step t = .next (completed c
      (channelAt s.sq[(advanceCursor (ticked rest t)).cursor].toNat) (ticked rest t)) := by
  obtain ⟨hen, -, -, -⟩ := inv_of_armed h.inv h.timer
  obtain ⟨c, hc, -⟩ := Option.map_eq_some_iff.1 h.channel
  refine ⟨c, (step_of_expiryTick h.unfaulted (h.params ▸ hin) h.deadline).trans ?_⟩
  exact complete_eq_next_iff_completed.2
    ⟨c, hc, hen, h.seqLen_ne_zero, rfl, h.nextSlot_named hslots rest, by rw [← h.sq]; rfl⟩

/-- The next expiry of a continuous run converts the next position. -/
theorem RunReaches.next (h : RunReaches s n t) (hslots : s.SlotsNamed) {rest : List Delivery}
    (hin : t.inbox = expiryTick s.params :: rest) :
    ∃ u, step t = .next u ∧ RunReaches s (n + 1) u ∧ u.inbox = rest := by
  obtain ⟨-, hext, hscan, -⟩ := inv_of_armed h.inv h.timer
  obtain ⟨c, hstep⟩ := h.step_eq hslots hin
  have hrearm : rearms (ticked rest t) = true := (rearms_iff (s := ticked rest t) hext).2 (.inl h.continuous)
  have hnow : t.now + t.params.convTime = s.now + (n + 1) * s.params.convTime := by
    rw [h.now, h.params, Nat.succ_mul, Nat.add_assoc]
  have hdeadline : t.now + t.params.convTime + t.params.convTime = s.now + (n + 1 + 1) * s.params.convTime := by
    rw [hnow, h.params, Nat.succ_mul (n + 1), Nat.add_assoc]
  obtain ⟨hlen, hdirty⟩ := completed_of_noPendingLength (s := ticked rest t) h.no_pending_length c
    (channelAt s.sq[(advanceCursor (ticked rest t)).cursor].toNat)
  exact ⟨_, hstep, {
    inv := stepKeepsInvariant t _ h.inv hstep
    unfaulted := h.unfaulted
    continuous := h.continuous
    no_pending_length := hdirty
    params := h.params
    sq := h.sq
    seqLen := hlen.trans h.seqLen
    now := hnow
    timer := (if_pos hrearm).trans (congrArg some hdeadline)
    cursor := h.nextPosition rest
    channel := congrArg some (channelAt_slot_val _)
    eoc := fun _ => endOfConversion_iff_wraps (s := ticked rest t) hscan h.cursor_lt }, rfl⟩

/-- A continuous run goes on as long as its expiries are delivered: induction over their number. -/
theorem runReaches_of_ticks (h : RunReaches s 0 s) (hslots : s.SlotsNamed) (n : Nat) :
    ∀ rest, s.inbox = List.replicate n (expiryTick s.params) ++ rest →
      ∃ t, stepTimes n s = .next t ∧ RunReaches s n t ∧ t.inbox = rest := by
  induction n with
  | zero => exact fun rest hin => ⟨s, rfl, h, hin⟩
  | succ n ih =>
    intro rest hin
    rw [List.replicate_succ', List.append_assoc] at hin
    obtain ⟨t, hsteps, ht, htin⟩ := ih _ hin
    obtain ⟨u, hstep, hu, huin⟩ := ht.next hslots htin
    exact ⟨u, by rw [stepTimes_succ_last, hsteps, andThen_next, hstep], hu, huin⟩

end

/-- Settles O49: the start of the run is its state after no completion. -/
theorem continuousRunCycles : Obligations.ContinuousRunCycles := by
  unfold Obligations.ContinuousRunCycles
  intro s n rest hs hslots hunfaulted hcont hcursor hlen htimer hchannel hin
  have hchannel₀ : s.currentChannel.map (·.val) = some s.sq[s.cursor].toNat := by
    simp only [hcursor]
    exact hchannel
  have hstart : RunReaches s 0 s := {
    inv := hs
    unfaulted := hunfaulted
    continuous := hcont
    no_pending_length := hlen
    params := rfl
    sq := rfl
    seqLen := rfl
    now := by simp
    timer := by simpa using htimer
    cursor := by simp [hcursor]
    channel := hchannel₀
    eoc := nofun }
  obtain ⟨t, hsteps, ht, htin⟩ := runReaches_of_ticks hstart hslots n rest hin
  exact ⟨t, t.cursor, hsteps, ht.now, ht.cursor, rfl, ht.sq, ht.seqLen, ht.channel,
    fun hn => (ht.eoc hn).trans Fin.ext_iff, ht.timer, htin⟩

end Sys2Proof.Proofs.Converter
end

section
/-! PROOFS. The trigger router (R220 to R225): which edges trigger, and what becomes of the others. -/

namespace Sys2Proof.Proofs.TriggerRouter
open Sys2Proof Sys2Proof.Machine Sys2Proof.Proofs.Encoding

/-- Which levels trigger in which mode (R116, R223). -/
theorem edgeQualifies_iff {exten : BitVec 2} {level : Bool} :
    edgeQualifies exten level = true ↔
      (exten = 1 ∧ level = true) ∨ (exten = 2 ∧ level = false) ∨ exten = 3 := by
  revert exten level
  decide

/-- An edge that passes the checks behind the line match: polarity, enabled, start (R220, R223, R225). -/
def Triggers (level : Bool) (s : State) : Prop :=
  edgeQualifies s.exten level = true ∧ s.enabled = true ∧
    (s.params.edgeRequiresStart = false ∨ s.scanActive = true)

/-- Only external modes have edges that trigger (R222, R223). -/
theorem exten_ne_zero_of_triggers {s : State} {level : Bool} (h : Triggers level s) : s.exten ≠ 0 := by
  obtain ⟨hqual, -, -⟩ := h
  rintro h0
  simp [h0, edgeQualifies_iff] at hqual

section
variable {s : State} {line : BitVec 5} {level : Bool} (hs : s.faulted = none)
  (hline : line.toNat < s.params.nTrig.val)
include hs hline

/-- An edge on a line of the block in internal mode (R222). -/
theorem exec_edge_of_internal (hext : s.exten = 0) : exec (.edge line level) s = .next s.begun := by
  rw [exec_edge, execEdge, onEvent_of_unfaulted hs]
  exact (if_neg hline.not_ge).trans (if_pos hext)

/-- An edge in an external mode on a line other than the source (R220, R225). -/
theorem exec_edge_of_unmatched (hext : s.exten ≠ 0) (hsel : line ≠ s.extsel) :
    exec (.edge line level) s = .next (s.logged [.unmatchedTriggerLine line]) := by
  rw [exec_edge, execEdge, onEvent_of_unfaulted hs]
  exact (if_neg hline.not_ge).trans ((if_neg hext).trans (if_pos hsel))

/-- An edge in an external mode on the source's line: the checks, then the drain (R220). -/
theorem exec_edge_of_matched (hext : s.exten ≠ 0) (hsel : line = s.extsel) :
    exec (.edge line level) s =
      if !(edgeQualifies s.exten level) then .next s.begun
      else if !s.enabled then .next s.begun
      else if s.params.edgeRequiresStart && !s.scanActive then .next s.begun
      else drain s.seqLen.val s.begun := by
  rw [exec_edge, execEdge, onEvent_of_unfaulted hs]
  exact (if_neg hline.not_ge).trans ((if_neg hext).trans (if_neg (not_not_intro hsel)))

/-- A matched edge that does not trigger is dropped (R223, R225). -/
theorem exec_edge_of_not_triggers (hext : s.exten ≠ 0) (hsel : line = s.extsel) (h : ¬Triggers level s) :
    exec (.edge line level) s = .next s.begun := by
  rw [exec_edge_of_matched hs hline hext hsel]
  split_ifs with hqual hen hstart
  · rfl
  · rfl
  · rfl
  · exact absurd ⟨by simpa using hqual, by simpa using hen, by simpa [or_iff_not_imp_left] using hstart⟩ h

/-- A matched edge that triggers starts the drain (R224). -/
theorem exec_edge_of_triggers (hsel : line = s.extsel) (h : Triggers level s) :
    exec (.edge line level) s = drain s.seqLen.val s.begun := by
  obtain ⟨hqual, hen, hstart⟩ := h
  rw [exec_edge_of_matched hs hline (exten_ne_zero_of_triggers ⟨hqual, hen, hstart⟩) hsel, hqual, hen]
  obtain hfree | hscan := hstart
  · simp [hfree]
  · simp [hscan]

end

/-- Settles O43: internal mode is checked before the line is matched. -/
theorem edgeIgnoredInInternalMode : Obligations.EdgeIgnoredInInternalMode := by
  unfold Obligations.EdgeIgnoredInInternalMode
  exact fun _ _ _ hs hline hext => exec_edge_of_internal hs hline hext

/-- Settles O44: each of the three drops of a matched edge denies one part of `Triggers`. -/
theorem edgeDropped : Obligations.EdgeDropped := by
  unfold Obligations.EdgeDropped
  intro s line level hs hline hext
  have dropped (hsel : line = s.extsel) (h : ¬Triggers level s) : exec (.edge line level) s = .next s.begun :=
    exec_edge_of_not_triggers hs hline hext hsel h
  refine ⟨exec_edge_of_unmatched hs hline hext, fun hsel hpol => dropped hsel ?polarity,
    fun hsel hoff => dropped hsel ?disabled, fun hsel hreq hscan => dropped hsel ?unstarted⟩
  case polarity =>
    rintro ⟨hqual, -, -⟩
    obtain ⟨h1, h2⟩ | ⟨h1, h2⟩ := hpol <;> simp [h1, h2, edgeQualifies_iff] at hqual
  case disabled =>
    rintro ⟨-, hen, -⟩
    simp [hoff] at hen
  case unstarted =>
    rintro ⟨-, -, hstart⟩
    simp [hreq, hscan] at hstart

end Sys2Proof.Proofs.TriggerRouter
end

section
/-! PROOFS. The positions a drain goes through (R224, R227), counted by its completions: their lengths, the slots it
selects, and the channels it pops. -/

namespace Sys2Proof.Proofs.TriggerRouter
open Sys2Proof Sys2Proof.Machine

/-- The position a drain from `s` has reached after `n` completions (R224, R227): on from the cursor to the last
position, then on from 0 under the length that holds after the wrap. -/
def positionAfter (s : State) (n : Nat) : Nat :=
  if s.cursor.val + n < s.seqLen.val then s.cursor.val + n
  else (s.cursor.val + n - s.seqLen.val) % s.nextLen

/-- The length in force at that position (R196, R227). -/
def lengthAfter (s : State) (n : Nat) : Fin 17 :=
  if s.cursor.val + n < s.seqLen.val then s.seqLen else if s.lenDirty then lengthValue s.l else s.seqLen

/-- Whether a written length still waits there (R196, R227). -/
def pendingAfter (s : State) (n : Nat) : Bool := s.lenDirty && decide (s.cursor.val + n < s.seqLen.val)

/-- The channel selected for that position: `c` before the first completion, then the slot's. -/
def channelAfter (c : Fin Config.maxCh) (s : State) (n : Nat) : Fin Config.maxCh :=
  match n with
  | 0 => c
  | n + 1 => channelAt s.sq[Fin.ofNat 16 (positionAfter s (n + 1))].toNat

variable {s : State} {c : Fin Config.maxCh} {n : Nat}

/-! Position and length, one completion after the other -/

theorem positionAfter_of_lt (h : s.cursor.val + n < s.seqLen.val) : positionAfter s n = s.cursor.val + n :=
  if_pos h

theorem positionAfter_of_le (h : s.seqLen.val ≤ s.cursor.val + n) :
    positionAfter s n = (s.cursor.val + n - s.seqLen.val) % s.nextLen :=
  if_neg h.not_gt

/-- The wrap goes to position 0 (R194). -/
theorem positionAfter_of_wrap (h : s.cursor.val + n = s.seqLen.val) : positionAfter s n = 0 := by
  rw [positionAfter_of_le h.ge, h, Nat.sub_self, Nat.zero_mod]

/-- A drain ends where the cursor stands under the length then in force (R227). -/
theorem positionAfter_seqLen (s : State) : positionAfter s s.seqLen.val = s.cursor.val % s.nextLen := by
  rw [positionAfter_of_le (Nat.le_add_left _ _), Nat.add_sub_cancel]

theorem lengthAfter_of_lt (h : s.cursor.val + n < s.seqLen.val) : lengthAfter s n = s.seqLen := if_pos h

theorem lengthAfter_of_le (h : s.seqLen.val ≤ s.cursor.val + n) : (lengthAfter s n).val = s.nextLen := by
  rw [lengthAfter, if_neg h.not_gt, State.nextLen]
  split
  · exact lengthValue_val _
  · rfl

/-- The length that holds after the wrap is that of some sequence. -/
theorem nextLen_pos (hcur : s.cursor.val < s.seqLen.val) : 0 < s.nextLen := by
  rw [State.nextLen]
  split <;> omega

theorem positionAfter_lt_lengthAfter (hcur : s.cursor.val < s.seqLen.val) (n : Nat) :
    positionAfter s n < (lengthAfter s n).val := by
  obtain hlt | hle := Nat.lt_or_ge (s.cursor.val + n) s.seqLen.val
  · rwa [positionAfter_of_lt hlt, lengthAfter_of_lt hlt]
  · rw [positionAfter_of_le hle, lengthAfter_of_le hle]
    exact Nat.mod_lt _ (nextLen_pos hcur)

/-- A position of a drain is a position of the sequence. -/
theorem ofNat_positionAfter_val (hcur : s.cursor.val < s.seqLen.val) (n : Nat) :
    (Fin.ofNat 16 (positionAfter s n)).val = positionAfter s n := by
  have hlt := positionAfter_lt_lengthAfter hcur n
  exact Nat.mod_eq_of_lt (by omega)

/-- The cursor advance goes to the next position of the drain (R194, R227). -/
theorem positionAfter_succ (s : State) (n : Nat) :
    positionAfter s (n + 1) = (positionAfter s n + 1) % (lengthAfter s n).val := by
  obtain hlt | hle := Nat.lt_or_ge (s.cursor.val + n) s.seqLen.val
  · rw [positionAfter_of_lt hlt, lengthAfter_of_lt hlt]
    obtain hlt' | hwrap := Nat.lt_or_eq_of_le hlt
    · rw [positionAfter_of_lt hlt']
      exact (Nat.mod_eq_of_lt hlt').symm
    · rw [positionAfter_of_wrap hwrap]
      exact (Nat.mod_eq_zero_of_dvd hwrap.symm.dvd).symm
  · rw [positionAfter_of_le hle, positionAfter_of_le (hle.trans (Nat.le_succ _)), lengthAfter_of_le hle,
      Nat.mod_add_mod, ← Nat.add_assoc, Nat.sub_add_comm hle]

/-- The wrap applies a pending length, and nothing else does (R196, R227). -/
theorem length_succ (s : State) (n : Nat) :
    lengthAfter s (n + 1) =
        (if pendingAfter s n && positionAfter s (n + 1) == 0 then lengthValue s.l else lengthAfter s n) ∧
      pendingAfter s (n + 1) = (pendingAfter s n && !(positionAfter s (n + 1) == 0)) := by
  obtain hlt | hwrap | hgt := Nat.lt_trichotomy (s.cursor.val + (n + 1)) s.seqLen.val
  · have hlt' : s.cursor.val + n < s.seqLen.val := Nat.lt_of_succ_lt hlt
    simp [lengthAfter_of_lt hlt, lengthAfter_of_lt hlt', positionAfter_of_lt hlt, pendingAfter, hlt, hlt']
  · have hlt : s.cursor.val + n < s.seqLen.val := by omega
    simp [positionAfter_of_wrap hwrap, lengthAfter, pendingAfter, hlt, hwrap.ge]
  · have hnot : ¬s.cursor.val + n < s.seqLen.val := (Nat.le_of_lt_succ hgt).not_gt
    simp only [lengthAfter, pendingAfter, hnot, hgt.not_gt, if_false, decide_false, Bool.and_false, Bool.false_and,
      Bool.false_eq_true, and_self]

theorem nextLen_of_noPendingLength (h : s.lenDirty = false) : s.nextLen = s.seqLen.val := by
  simp [State.nextLen, h]

theorem lengthAfter_of_noPendingLength (h : s.lenDirty = false) (n : Nat) : lengthAfter s n = s.seqLen := by
  simp [lengthAfter, h]

/-! What a drain converts and selects -/

/-- The positions a drain converts are those after 0, 1, ..., `seqLen - 1` completions. -/
theorem drainPositions_eq (hcur : s.cursor.val < s.seqLen.val) :
    drainPositions s = (List.range s.seqLen.val).map (positionAfter s) := by
  have hlen : s.seqLen.val = s.seqLen.val - s.cursor.val + s.cursor.val := by omega
  rw [drainPositions, hlen, List.range_add, List.map_append, ← hlen, List.range'_eq_map_range, List.map_map]
  congr 1
  · refine List.map_congr_left fun j hj => (positionAfter_of_lt ?_).symm
    have := List.mem_range.1 hj
    omega
  · refine List.map_congr_left fun j hj => ?_
    rw [Function.comp_apply, positionAfter_of_le (by omega)]
    congr 1
    omega

/-- From position 0 a drain converts each position of the sequence once (R228). -/
theorem drainPositions_of_start (hcursor : s.cursor = 0) :
    drainPositions s = List.range' 0 s.seqLen.val := by
  simp [drainPositions, hcursor]

/-- The positions a drain selects are those after 1, 2, ..., `seqLen` completions. -/
theorem drainSelections_eq (hcur : s.cursor.val < s.seqLen.val) :
    drainSelections s = (List.range s.seqLen.val).map fun n => Fin.ofNat 16 (positionAfter s (n + 1)) := by
  have hne : (List.range s.seqLen.val).map (positionAfter s) ≠ [] := by
    simpa using Nat.ne_zero_of_lt hcur
  have htail : ((List.range s.seqLen.val).map (positionAfter s)).tail ++ [positionAfter s s.seqLen.val] =
      (List.range s.seqLen.val).map fun n => positionAfter s (n + 1) := by
    rw [← List.tail_append_of_ne_nil hne, ← List.map_singleton, ← List.map_append, ← List.range_succ,
      List.range_succ_eq_map, List.map_cons, List.tail_cons, List.map_map]
    rfl
  rw [drainSelections, drainPositions_eq hcur, ← positionAfter_seqLen, htail, List.map_map]
  rfl

/-- A position a drain selects is that after some number of completions. -/
theorem mem_drainSelections (hcur : s.cursor.val < s.seqLen.val) {j : Nat} (hj : j < s.seqLen.val) :
    Fin.ofNat 16 (positionAfter s (j + 1)) ∈ drainSelections s := by
  rw [drainSelections_eq hcur]
  exact List.mem_map_of_mem (List.mem_range.2 hj)

/-- The selections before one of them are those of the completions before. -/
theorem drainSelections_split (hcur : s.cursor.val < s.seqLen.val) {before after : List (Fin 16)} {p : Fin 16}
    (h : drainSelections s = before ++ p :: after) :
    ∃ i m, s.seqLen.val = i + (m + 1) ∧
      before = (List.range i).map (fun n => Fin.ofNat 16 (positionAfter s (n + 1))) ∧
      p = Fin.ofNat 16 (positionAfter s (i + 1)) := by
  rw [drainSelections_eq hcur, List.range_eq_range'] at h
  obtain ⟨first, rest, hrange, rfl, hrest⟩ := List.map_eq_append_iff.1 h
  obtain ⟨i, -, rfl, rfl⟩ := List.range'_eq_append_iff.1 hrange
  obtain ⟨q, qs, hq, rfl, -⟩ := List.map_eq_cons_iff.1 hrest
  obtain ⟨rfl, hpos, -⟩ := List.range'_eq_cons_iff.1 hq
  exact ⟨i, s.seqLen.val - i - 1, by omega, by rw [List.range_eq_range'], by rw [Nat.zero_add, Nat.mul_one]⟩

/-- With no length pending a drain selects positions of the sequence only. -/
theorem lt_seqLen_of_mem_drainSelections (hcur : s.cursor.val < s.seqLen.val) (h : s.lenDirty = false)
    {p : Fin 16} (hp : p ∈ drainSelections s) : p.val < s.seqLen.val := by
  rw [drainSelections_eq hcur] at hp
  obtain ⟨j, -, rfl⟩ := List.mem_map.1 hp
  have hlt := positionAfter_lt_lengthAfter hcur (j + 1)
  rw [lengthAfter_of_noPendingLength h] at hlt
  rwa [ofNat_positionAfter_val hcur]

/-! The channels it pops -/

theorem channelAfter_val (h : n ≠ 0) :
    (channelAfter c s n).val = s.sq[Fin.ofNat 16 (positionAfter s n)].toNat := by
  cases n with
  | zero => exact absurd rfl h
  | succ n => exact channelAt_slot_val _

/-- The channels a drain pops are those selected after 0, 1, ..., `seqLen - 1` completions. -/
theorem drainChannels_eq (hcur : s.cursor.val < s.seqLen.val) :
    drainChannels c s = (List.range s.seqLen.val).map (channelAfter c s) := by
  obtain ⟨m, hm⟩ := Nat.exists_eq_add_of_lt hcur
  rw [drainChannels, drainPositions_eq hcur, hm, List.range_succ_eq_map, List.map_cons, List.map_cons,
    List.tail_cons, List.map_map, List.map_map, List.map_map]
  rfl

/-- The pops of the first `n` completions: the state after them, and the result the last one latches. -/
def popped (c : Fin Config.maxCh) (s : State) (n : Nat) : State × Word :=
  popEach ((List.range n).map (channelAfter c s)) s

/-- One completion more is one pop more. -/
theorem popped_succ (c : Fin Config.maxCh) (s : State) (n : Nat) :
    popped c s (n + 1) = (popState (channelAfter c s n) (popped c s n).1,
      popValue (channelAfter c s n) (popped c s n).1 &&& s.params.resolutionMask s.res) := by
  rw [popped, List.range_succ, List.map_append, popEach, List.foldl_append]
  rfl

theorem popped_params (c : Fin Config.maxCh) (s : State) (n : Nat) : (popped c s n).1.params = s.params := by
  induction n with
  | zero => rfl
  | succ n ih => rw [popped_succ, popState_params, ih]

/-- A pop reads the channels, the count of draws and the parameters, and nothing else (R254, R261). -/
theorem pop_congr {t : State} (d : Fin Config.maxCh) (hchan : s.chan = t.chan) (hdraws : s.draws = t.draws)
    (hparams : s.params = t.params) :
    popValue d s = popValue d t ∧ (popState d s).chan = (popState d t).chan ∧
      (popState d s).draws = (popState d t).draws := by
  simp [popValue, unfedValue, popState, popDraws, hchan, hdraws, hparams]

end Sys2Proof.Proofs.TriggerRouter
end

section
/-! PROOFS. The interrupt and the line actions of a drain (R191 to R193), counted by its completions. -/

namespace Sys2Proof.Proofs.TriggerRouter
open Sys2Proof Sys2Proof.Machine

/-- The completion of the drain that is the first to compute end-of-conversion (R191): the first without scan mode,
that of the last position with it. -/
def firstEoc (s : State) : Nat := if s.scanActive then s.seqLen.val - s.cursor.val else 1

/-- Whether completion `n` computes end-of-conversion: always without scan mode, on the wrap with it. -/
def eocAt (s : State) (n : Nat) : Bool := !s.scanActive || positionAfter s n == 0

/-- The interrupt line after `n` completions (R193). -/
def irqAfter (s : State) (n : Nat) : Bool := s.irq || (s.ier.getLsbD 2 && decide (firstEoc s ≤ n))

/-- The DMA pulse of one completion, if enabled (R192). -/
def dmaPulse (s : State) : List LineAction :=
  if s.params.dmaEnables s.dmngt then [.dmaReq true, .dmaReq false] else []

/-- The line actions of the first `n` completions: a pulse for each, and the interrupt after `firstEoc` of them
(R192, R193). -/
def drainLines (s : State) (n : Nat) : List LineAction :=
  (List.replicate (min n (firstEoc s)) (dmaPulse s)).flatten ++
    (if firstEoc s ≤ n ∧ s.ier.getLsbD 2 = true ∧ s.irq = false then [.irq true] else []) ++
    (List.replicate (n - firstEoc s) (dmaPulse s)).flatten

variable {s : State} {n : Nat}

theorem firstEoc_pos (hcur : s.cursor.val < s.seqLen.val) : 0 < firstEoc s := by
  rw [firstEoc]
  split <;> omega

theorem firstEoc_le_seqLen (hcur : s.cursor.val < s.seqLen.val) : firstEoc s ≤ s.seqLen.val := by
  rw [firstEoc]
  split <;> omega

/-- Once end-of-conversion has been computed, it has been at `firstEoc` or at a later completion. -/
theorem firstEoc_le_succ_iff (hcur : s.cursor.val < s.seqLen.val) :
    firstEoc s ≤ n + 1 ↔ firstEoc s ≤ n ∨ eocAt s (n + 1) = true := by
  cases hscan : s.scanActive with
  | false => simp [firstEoc, eocAt, hscan]
  | true =>
    simp only [firstEoc, eocAt, hscan, if_true, Bool.not_true, Bool.false_or, beq_iff_eq]
    obtain hlt | hwrap | hgt := Nat.lt_trichotomy (s.cursor.val + (n + 1)) s.seqLen.val
    · rw [positionAfter_of_lt hlt]
      omega
    · rw [positionAfter_of_wrap hwrap]
      omega
    · omega

theorem irqAfter_succ (hcur : s.cursor.val < s.seqLen.val) (n : Nat) :
    irqAfter s (n + 1) = (irqAfter s n || (eocAt s (n + 1) && s.ier.getLsbD 2)) := by
  simp only [irqAfter, decide_eq_decide.2 (firstEoc_le_succ_iff hcur), Bool.decide_or, Bool.decide_eq_true,
    Bool.and_or_distrib_left, Bool.or_assoc, Bool.and_comm]

/-- One completion more: a pulse, then the interrupt if it is due and the line is low. -/
theorem drainLines_succ (hcur : s.cursor.val < s.seqLen.val) (n : Nat) :
    drainLines s (n + 1) = drainLines s n ++ dmaPulse s ++
      (if eocAt s (n + 1) = true ∧ s.ier.getLsbD 2 = true ∧ irqAfter s n = false then [.irq true] else []) := by
  have hfirst := firstEoc_le_succ_iff hcur (n := n)
  obtain hbefore | hat | hafter : n + 1 < firstEoc s ∨ n + 1 = firstEoc s ∨ firstEoc s ≤ n := by omega
  · have heoc : eocAt s (n + 1) = false := by
      rw [← Bool.not_eq_true]
      exact fun h => absurd (hfirst.2 (.inr h)) hbefore.not_ge
    simp [drainLines, heoc, hbefore.le, hbefore.not_ge, (Nat.lt_of_succ_lt hbefore).le,
      (Nat.lt_of_succ_lt hbefore).not_ge, List.replicate_succ']
  · have heoc : eocAt s (n + 1) = true := (hfirst.1 hat.ge).resolve_left (by omega)
    have hnot : ¬firstEoc s ≤ n := by omega
    have hirq : irqAfter s n = s.irq := by simp [irqAfter, hnot]
    simp [drainLines, heoc, hirq, ← hat, List.replicate_succ']
  · have hdue : ¬(eocAt s (n + 1) = true ∧ s.ier.getLsbD 2 = true ∧ irqAfter s n = false) := by
      rintro ⟨-, hier, hlow⟩
      simp only [irqAfter, hier, hafter, decide_true, Bool.and_true, Bool.or_true, reduceCtorEq] at hlow
    rw [if_neg hdue, drainLines, drainLines, min_eq_right hafter, min_eq_right (by omega),
      Nat.succ_sub hafter, List.replicate_succ', List.flatten_append]
    simp [hafter, hafter.trans n.le_succ]

/-- The line actions of a whole drain: end-of-conversion has been computed. -/
theorem drainLines_seqLen (hcur : s.cursor.val < s.seqLen.val) :
    drainLines s s.seqLen.val = (List.replicate (firstEoc s) (dmaPulse s)).flatten ++
      (if s.ier.getLsbD 2 = true ∧ s.irq = false then [.irq true] else []) ++
      (List.replicate (s.seqLen.val - firstEoc s) (dmaPulse s)).flatten := by
  have hfirst := firstEoc_le_seqLen hcur
  simp only [drainLines, min_eq_right hfirst, hfirst, true_and]

/-- The line actions of a drain from position 0: in scan mode the interrupt is last, without it after the first pulse. -/
theorem drainLines_of_start (hcur : s.cursor.val < s.seqLen.val) (hcursor : s.cursor = 0) :
    drainLines s s.seqLen.val =
      if s.ier.getLsbD 2 = true ∧ s.irq = false then
        if s.scanActive then (List.replicate s.seqLen.val (dmaPulse s)).flatten ++ [.irq true]
        else dmaPulse s ++ [.irq true] ++ (List.replicate (s.seqLen.val - 1) (dmaPulse s)).flatten
      else (List.replicate s.seqLen.val (dmaPulse s)).flatten := by
  rw [drainLines_seqLen hcur]
  cases hscan : s.scanActive with
  | true =>
    have hfirst : firstEoc s = s.seqLen.val := by simp [firstEoc, hscan, hcursor]
    rw [hfirst, Nat.sub_self, if_pos rfl]
    split <;> simp
  | false =>
    obtain ⟨m, hm⟩ := Nat.exists_eq_succ_of_ne_zero (Nat.ne_zero_of_lt hcur)
    have hfirst : firstEoc s = 1 := by simp [firstEoc, hscan]
    rw [hfirst, if_neg Bool.false_ne_true, hm]
    split <;> simp [List.replicate_succ]

end Sys2Proof.Proofs.TriggerRouter
end

section
/-! PROOFS. The drain of an edge that triggers (R224, R227): the state after each of its completions, whole, and the
fault at the first slot that names no channel (R189). -/

namespace Sys2Proof.Proofs.TriggerRouter
open Sys2Proof Sys2Proof.Machine Sys2Proof.Proofs.Converter

variable {s : State} {c : Fin Config.maxCh} {n : Nat}

/-! The state after each completion -/

/-- The state after `n` completions of a drain from `s`, whole (R190 to R196, R224, R227). -/
def drained (c : Fin Config.maxCh) (s : State) (n : Nat) : State :=
  { s with
    chan := (popped c s n).1.chan
    draws := (popped c s n).1.draws
    latchedResult := (popped c s n).2
    eoc := if n = 0 then s.eoc else eocAt s n
    eosmp := s.eosmp || (decide (n ≠ 0) && s.params.eosmpOnCompletion)
    irq := irqAfter s n
    cursor := Fin.ofNat 16 (positionAfter s n)
    seqLen := lengthAfter s n
    lenDirty := pendingAfter s n
    currentChannel := some (channelAfter c s n)
    out := { Outputs.empty with lines := drainLines s n } }

theorem drained_zero (hc : s.currentChannel = some c) (hcur : s.cursor.val < s.seqLen.val) :
    drained c s 0 = s.begun := by
  have hfirst : ¬firstEoc s ≤ 0 := (firstEoc_pos hcur).not_ge
  have hpos : positionAfter s 0 = s.cursor.val := positionAfter_of_lt hcur
  have hlen : lengthAfter s 0 = s.seqLen := lengthAfter_of_lt hcur
  simp [drained, State.begun, hpos, hlen, pendingAfter, irqAfter, hfirst, drainLines, popped, popEach, channelAfter,
    hcur, ← hc, Outputs.empty]

theorem advanceCursor_drained (hcur : s.cursor.val < s.seqLen.val) (n : Nat) :
    (advanceCursor (drained c s n)).cursor = Fin.ofNat 16 (positionAfter s (n + 1)) := by
  rw [positionAfter_succ, ← ofNat_positionAfter_val hcur n]
  rfl

theorem endOfConversion_drained (hcur : s.cursor.val < s.seqLen.val) (n : Nat) :
    endOfConversion (drained c s n) = eocAt s (n + 1) := by
  cases hscan : s.scanActive with
  | false => simp [endOfConversion, eocAt, drained, hscan]
  | true =>
    have hlt : (drained c s n).cursor.val < (drained c s n).seqLen.val :=
      (ofNat_positionAfter_val hcur n).trans_lt (positionAfter_lt_lengthAfter hcur n)
    rw [Bool.eq_iff_iff, endOfConversion_iff_wraps (s := drained c s n) hscan hlt, advanceCursor_drained hcur,
      Fin.ext_iff, ofNat_positionAfter_val hcur]
    simp [eocAt, hscan]

theorem rearms_drained (hext : s.exten ≠ 0) (n : Nat) : rearms (drained c s n) = false := by
  simp only [rearms, drained, beq_eq_false_iff_ne.2 hext, Bool.false_and]

/-- The timer is armed in internal mode only (R32 item 5). -/
theorem timer_of_external (hs : s.Inv) (hext : s.exten ≠ 0) : s.timer = none := by
  rw [← Option.not_isSome_iff_eq_none]
  exact fun harmed => hext (hs.of_timer harmed).2

/-- Completion `n + 1` of a drain takes the state after `n` to that after `n + 1`. -/
theorem completed_drained (hs : s.Inv) (hext : s.exten ≠ 0) (hcur : s.cursor.val < s.seqLen.val) (n : Nat) :
    completed (channelAfter c s n) (channelAfter c s (n + 1)) (drained c s n) = drained c s (n + 1) := by
  obtain ⟨hvalue, hchan, hdraws⟩ := pop_congr (s := drained c s n) (t := (popped c s n).1) (channelAfter c s n)
    rfl rfl (popped_params c s n).symm
  obtain ⟨hlen, hpending⟩ := length_succ s n
  have hwrap : (Fin.ofNat 16 (positionAfter s (n + 1)) == 0) = (positionAfter s (n + 1) == 0) := by
    rw [Bool.eq_iff_iff, beq_iff_eq, beq_iff_eq, Fin.ext_iff, ofNat_positionAfter_val hcur]
    rfl
  have heosmp : (s.eosmp || (decide (n ≠ 0) && s.params.eosmpOnCompletion) || s.params.eosmpOnCompletion) =
      (s.eosmp || s.params.eosmpOnCompletion) := by
    cases s.params.eosmpOnCompletion <;> simp
  have hdma : dmaEnabled (drained c s n) = s.params.dmaEnables s.dmngt := rfl
  have hier : eocInterruptEnabled (drained c s n) = s.ier.getLsbD 2 := rfl
  simp only [completed, hvalue, hchan, hdraws, rearms_drained hext, endOfConversion_drained hcur,
    advanceCursor_drained hcur, hwrap, hdma, hier]
  simp only [drained, popped_succ, hlen, hpending, irqAfter_succ hcur, drainLines_succ hcur, dmaPulse, hs.dmaReq_low,
    timer_of_external hs hext, heosmp]
  simp [and_assoc]

/-! The drain, completion by completion -/

theorem drain_add (n m : Nat) (s : State) : drain (n + m) s = andThen (drain n s) (drain m) := by
  induction n generalizing s with
  | zero => rw [Nat.zero_add, drain_zero, andThen_next]
  | succ n ih =>
    rw [Nat.succ_add, drain_succ, drain_succ]
    cases complete s with
    | next u => exact ih u
    | fault x => rfl
    | refused x => rfl

/-- The slot selected after `n` completions names a channel of the block (R189). -/
def NamedAfter (s : State) (n : Nat) : Prop :=
  s.sq[Fin.ofNat 16 (positionAfter s n)].toNat < s.params.nCh.val

section
variable (hs : s.Inv) (hen : s.enabled = true) (hext : s.exten ≠ 0) (hc : s.currentChannel = some c)
include hs hen

theorem cursor_lt_of_enabled : s.cursor.val < s.seqLen.val := hs.cursor_lt (hs.length_of_enabled hen)

theorem lengthAfter_ne_zero (n : Nat) : lengthAfter s n ≠ 0 := by
  have hlt := positionAfter_lt_lengthAfter (cursor_lt_of_enabled hs hen) n
  exact fun h0 => Nat.not_lt_zero _ (h0 ▸ hlt)

include hext

/-- A completion of a drain whose next slot names a channel. -/
theorem complete_drained (h : NamedAfter s (n + 1)) :
    complete (drained c s n) = .next (drained c s (n + 1)) := by
  have hadv := advanceCursor_drained (c := c) (cursor_lt_of_enabled hs hen) n
  refine complete_eq_next_iff_completed.2 ⟨channelAfter c s n, rfl, hen, lengthAfter_ne_zero hs hen n,
    timer_of_external (s := s) hs hext, ?_, ?_⟩
  · simp only [hadv]
    exact h
  · simp only [hadv]
    exact (completed_drained hs hext (cursor_lt_of_enabled hs hen) n).symm

/-- A completion of a drain whose next slot names no channel (R189). -/
theorem complete_drained_of_unnamed (h : ¬NamedAfter s (n + 1)) :
    complete (drained c s n) = .fault (.channelOutOfRange (Fin.ofNat 16 (positionAfter s (n + 1)))
      s.sq[Fin.ofNat 16 (positionAfter s (n + 1))]) := by
  have hfault := complete_of_unnamedSlot (s := drained c s n) rfl hen (lengthAfter_ne_zero hs hen n)
    (timer_of_external (s := s) hs hext)
  simp only [advanceCursor_drained (c := c) (cursor_lt_of_enabled hs hen) n] at hfault
  exact hfault (Nat.le_of_not_lt h)

include hc

/-- A drain goes on as long as the slots it selects name channels: induction over its completions. -/
theorem drain_eq_drained (hnamed : ∀ j < n, NamedAfter s (j + 1)) : drain n s.begun = .next (drained c s n) := by
  induction n with
  | zero => rw [drain_zero, drained_zero hc (cursor_lt_of_enabled hs hen)]
  | succ n ih =>
    rw [drain_add, ih fun j hj => hnamed j (Nat.lt_succ_of_lt hj), andThen_next, drain_succ,
      complete_drained hs hen hext (hnamed n n.lt_succ_self), andThen_next, drain_zero]

/-- A drain faults at the first slot it selects that names no channel (R189, R279). -/
theorem drain_of_unnamed {m : Nat} (hnamed : ∀ j < n, NamedAfter s (j + 1)) (h : ¬NamedAfter s (n + 1)) :
    drain (n + (m + 1)) s.begun = .fault (.channelOutOfRange (Fin.ofNat 16 (positionAfter s (n + 1)))
      s.sq[Fin.ofNat 16 (positionAfter s (n + 1))]) := by
  rw [drain_add, drain_eq_drained hs hen hext hc hnamed, andThen_next, drain_succ,
    complete_drained_of_unnamed hs hen hext h, andThen_fault]

end

/-- Settles O45: `drained` after `seqLen` completions, field by field. -/
theorem qualifyingEdgeDrains : Obligations.QualifyingEdgeDrains := by
  unfold Obligations.QualifyingEdgeDrains
  intro s line level c hs hunfaulted hen hc hslots hline hsel hmode hstart
  have htrig : Triggers level s := ⟨edgeQualifies_iff.2 hmode, hen, hstart⟩
  have hext : s.exten ≠ 0 := exten_ne_zero_of_triggers htrig
  have hcur := cursor_lt_of_enabled hs hen
  have hnamed : ∀ j < s.seqLen.val, NamedAfter s (j + 1) := fun j hj => hslots _ (mem_drainSelections hcur hj)
  have hlen : s.seqLen.val ≠ 0 := Nat.ne_zero_of_lt hcur
  have hend : s.seqLen.val ≤ s.cursor.val + s.seqLen.val := Nat.le_add_left _ _
  have hfirst : firstEoc s ≤ s.seqLen.val := firstEoc_le_seqLen hcur
  have hcursor : (Fin.ofNat 16 (positionAfter s s.seqLen.val)).val = s.cursor.val % s.nextLen :=
    (ofNat_positionAfter_val hcur _).trans (positionAfter_seqLen s)
  have hpopped : popped c s s.seqLen.val = popEach (drainChannels c s) s := by rw [drainChannels_eq hcur, popped]
  rw [exec_edge_of_triggers hunfaulted hline hsel htrig, drain_eq_drained hs hen hext hc hnamed]
  refine ⟨_, rfl, congrArg (·.1.chan) hpopped, congrArg (·.1.draws) hpopped, congrArg (·.2) hpopped, hcursor,
    lengthAfter_of_le hend, ?lenDirty, congrArg some (channelAfter_val hlen), ?eoc, ?eosmp, ?irq, ?lines,
    timer_of_external (s := s) hs hext, rfl⟩
  case lenDirty => exact (congrArg (s.lenDirty && ·) (decide_eq_false hend.not_gt)).trans (Bool.and_false _)
  case eoc =>
    have hcursor0 : (drained c s s.seqLen.val).cursor = 0 ↔ positionAfter s s.seqLen.val = 0 := by
      rw [Fin.ext_iff]
      exact (ofNat_positionAfter_val hcur _).congr_left
    simp only [hcursor0]
    simp [drained, hlen, eocAt]
  case eosmp => simp [drained, hlen]
  case irq => simp [drained, irqAfter, hfirst]
  case lines => exact congrArg ({ Outputs.empty with lines := · }) (drainLines_seqLen hcur)

/-- Settles O46: O45 from position 0, where the drain wraps at its end. -/
theorem drainFromPositionZero : Obligations.DrainFromPositionZero := by
  unfold Obligations.DrainFromPositionZero
  intro s line level c hs hunfaulted hen hcursor hpending hc hslots hline hsel hmode hstart
  have hcur := cursor_lt_of_enabled hs hen
  obtain ⟨t, hexec, hchan, hdraws, hresult, hend, hlen, hdirty, hchannel, heoc, heosmp, hirq, hout, -, hframe⟩ :=
    qualifyingEdgeDrains s line level c hs hunfaulted hen hc
      (fun p hp => hslots p (lt_seqLen_of_mem_drainSelections hcur hpending hp)) hline hsel hmode hstart
  have hchannels : drainChannels c s = c :: (List.range' 1 (s.seqLen.val - 1)).map
      (fun j => channelAt s.sq[Fin.ofNat 16 j].toNat) := by
    rw [drainChannels, drainPositions_of_start hcursor, List.tail_range']
  have hzero : t.cursor = 0 := by
    rw [hcursor] at hend
    exact Fin.ext (hend.trans (Nat.zero_mod _))
  have hlen' : t.seqLen = s.seqLen := Fin.ext (hlen.trans (nextLen_of_noPendingLength hpending))
  rw [hchannels] at hchan hdraws hresult
  refine ⟨t, hexec, ⟨hchan, hdraws, hresult⟩, heoc.2 (.inr hzero), hirq, heosmp, ?lines, ?channel, ?frame⟩
  case lines =>
    exact hout.trans (congrArg ({ Outputs.empty with lines := · })
      ((drainLines_seqLen hcur).symm.trans (drainLines_of_start hcur hcursor)))
  case channel =>
    simp only [hzero] at hchannel
    exact hchannel
  case frame =>
    refine hframe.trans ?_
    rw [hzero, hlen', hdirty, ← hcursor, ← hpending]

/-- Settles O60: the drain gets to the selection before the slot and faults there. -/
theorem drainFaultsAtFirstUnnamedSlot : Obligations.DrainFaultsAtFirstUnnamedSlot := by
  unfold Obligations.DrainFaultsAtFirstUnnamedSlot
  intro s line level hs hunfaulted hen hline hsel hmode hstart before p after hsplit hbefore hp
  have htrig : Triggers level s := ⟨edgeQualifies_iff.2 hmode, hen, hstart⟩
  have hcur := cursor_lt_of_enabled hs hen
  obtain ⟨c, hc⟩ := Option.isSome_iff_exists.1 (hs.channel_of_enabled hen)
  obtain ⟨i, m, hlen, rfl, rfl⟩ := drainSelections_split hcur hsplit
  have hnamed : ∀ j < i, NamedAfter s (j + 1) := fun j hj =>
    hbefore _ (List.mem_map_of_mem (List.mem_range.2 hj))
  rw [exec_edge_of_triggers hunfaulted hline hsel htrig, hlen]
  exact drain_of_unnamed hs hen (exten_ne_zero_of_triggers htrig) hc hnamed hp.not_gt

end Sys2Proof.Proofs.TriggerRouter
end

section
/-! PROOFS. The expiry event (R238): refused while the timer is disarmed and at any time but the deadline. -/

namespace Sys2Proof.Proofs.ConversionTimer
open Sys2Proof Sys2Proof.Machine

/-- The hardware cannot receive an expiry of a disarmed timer (R237, R238). -/
theorem exec_expire_of_disarmed {s : State} (hs : s.faulted = none) (ht : s.timer = none) :
    exec .expire s = .refused .timerNotArmed := by
  rw [exec, execExpire, onEvent_of_unfaulted hs]
  simp only [State.begun, ht]

/-- In the timed model an expiry comes at the deadline (R238). -/
theorem exec_expire_of_notDue {s : State} {deadline : VTime} (hs : s.faulted = none)
    (ht : s.timer = some deadline) (hnow : s.now ≠ deadline) : exec .expire s = .refused .notAtDeadline := by
  rw [exec, execExpire, onEvent_of_unfaulted hs]
  simp only [State.begun, ht, if_neg hnow]

/-- An expiry that is accepted is due: the two refusals leave no other case. -/
theorem due_of_exec_expire {s t : State} (h : exec .expire s = .next t) : s.timer = some s.now := by
  obtain ⟨hs, -⟩ := onEvent_eq_next_iff.1 (show execExpire s = .next t from h)
  cases ht : s.timer with
  | none =>
    rw [exec_expire_of_disarmed hs ht] at h
    cases h
  | some deadline =>
    by_contra hdue
    have hnow : s.now ≠ deadline := fun hd => hdue (congrArg some hd.symm)
    rw [exec_expire_of_notDue hs ht hnow] at h
    cases h

/-- Settles O47: the two refusals. -/
theorem expireNeedsArmedTimer : Obligations.ExpireNeedsArmedTimer := by
  unfold Obligations.ExpireNeedsArmedTimer
  exact fun s hs => ⟨exec_expire_of_disarmed hs, fun _ => exec_expire_of_notDue hs⟩

end Sys2Proof.Proofs.ConversionTimer
end

section
/-! PROOFS. Virtual time (R240): no event moves the clock, a step moves it by what its delivery carries, and no
delivery passes an armed deadline. -/

namespace Sys2Proof.Proofs.ConversionTimer
open Sys2Proof Sys2Proof.Machine Sys2Proof.Proofs.BlockState

/-- The ADEN part of a Control write leaves the clock, the timer and the trigger mode alone (R183). -/
theorem enableWrite_keepsTimer {s t : State} (h : t = s ∨ enableWrite s = .next t) :
    t.now = s.now ∧ t.timer = s.timer ∧ t.exten = s.exten := by
  obtain rfl | h := h
  · exact ⟨rfl, rfl, rfl⟩
  · obtain rfl | rfl | ⟨-, -, -, rfl⟩ := enableWrite_cases h <;> exact ⟨rfl, rfl, rfl⟩

@[simp] theorem disableWrite_now (s : State) : (disableWrite s).now = s.now := by
  unfold disableWrite; split <;> simp

@[simp] theorem startWrite_now (s : State) : (startWrite s).now = s.now := by
  unfold startWrite; split_ifs <;> simp

@[simp] theorem triggerModeChanged_now (old new : BitVec 2) (s : State) :
    (triggerModeChanged old new s).now = s.now := by
  unfold triggerModeChanged; split_ifs <;> simp

@[simp] theorem controlAfterEnable_now (v : Word) (s : State) : (controlAfterEnable v s).now = s.now := by
  rw [controlAfterEnable, storeControl_eq]
  cases v.getLsbD addisBit <;> cases v.getLsbD adstartBit <;> simp

@[simp] theorem configured_now (v : Word) (s : State) : (configured v s).now = s.now := by simp [configured]

@[simp] theorem consumeResult_now (s : State) : (consumeResult s).now = s.now := lowerIrq_now _

theorem complete_now {s t : State} (h : complete s = .next t) : t.now = s.now := by
  obtain ⟨c, -, -, -, -, -, rfl⟩ := complete_eq_next_iff_completed.1 h
  rfl

/-- A drain takes no virtual time (R224, R240). -/
theorem drain_now {n : Nat} {s t : State} (h : drain n s = .next t) : t.now = s.now :=
  drain_induction (P := fun s t => t.now = s.now) (fun _ => rfl)
    (fun _ _ _ hst htu => htu.trans (complete_now hst)) n s t h

/-- The clock is the host's: no effect of an event moves it (R22, R240). -/
theorem effect_now {i : Instr} {s t : State} (h : Effect i s t) : t.now = s.now := by
  cases h with
  | dataRead v hi => exact consumeResult_now s
  | control v hu =>
    obtain ⟨hnow, -, -⟩ := enableWrite_keepsTimer hu
    exact (controlAfterEnable_now v _).trans hnow
  | configuration v => exact configured_now v s
  | sequence1 v hu => subst hu; exact lengthWritten_now _
  | edge line level hext ht => exact drain_now ht
  | expire htimer ht => exact (complete_now ht :)
  | reset => exact (lowerIrq_now _).trans (disarmTimer_now s)
  | _ => rfl

theorem exec_now {i : Instr} {s t : State} (h : exec i s = .next t) : t.now = s.now :=
  (effect_now (effect_of_exec h) :)

/-- The `EXPIRE` of an armed deadline comes before any delivery later than it (R240). -/
theorem step_of_late {s : State} {d : Delivery} {rest : List Delivery} {deadline : VTime}
    (hin : s.inbox = d :: rest) (ht : s.timer = some deadline) (hnow : s.now ≤ deadline)
    (hlate : deadline < s.now + d.elapsed) : step s = .refused .deadlinePassed := by
  rw [step_of_inbox_cons hin, if_pos (passesDeadline_iff.2 ⟨deadline, ht, hnow, hlate⟩)]

/-- A step moves the clock by what its delivery carries, and not at all without one. -/
theorem step_now {s t : State} (h : step s = .next t) :
    t.now = s.now + (match s.inbox with | [] => 0 | d :: _ => d.elapsed) := by
  cases hin : s.inbox with
  | nil =>
    rw [step_of_inbox_nil hin] at h
    cases h
    rfl
  | cons d rest =>
    rw [step_of_inbox_cons hin] at h
    split at h
    · cases h
    · exact exec_now h

/-- Settles O6: the clock of a step, the expiry that is accepted, the delivery that is late. -/
theorem timedModel : Obligations.TimedModel := by
  unfold Obligations.TimedModel
  exact ⟨fun _ _ => step_now, fun _ _ => due_of_exec_expire, fun _ _ _ _ => step_of_late⟩

end Sys2Proof.Proofs.ConversionTimer
end

section
/-! PROOFS. Which events move the conversion timer (R29, R242). -/

namespace Sys2Proof.Proofs.ConversionTimer
open Sys2Proof Sys2Proof.Machine Sys2Proof.Proofs.BlockState

/-- A start-write arms the timer in internal mode only (R185, R242). -/
theorem startWrite_timer_of_external {s : State} (hext : s.exten ≠ 0) : (startWrite s).timer = s.timer := by
  unfold startWrite
  rw [if_neg hext]
  split <;> simp

/-- Of the commands after ADEN only ADDIS, and ADSTART in internal mode, reach the timer (R242). -/
theorem controlAfterEnable_timer {v : Word} {s : State} (hdis : v.getLsbD addisBit = false)
    (hstart : v.getLsbD adstartBit = true → s.exten ≠ 0) : (controlAfterEnable v s).timer = s.timer := by
  rw [controlAfterEnable, storeControl_eq, hdis]
  cases hs : v.getLsbD adstartBit with
  | false => rfl
  | true => exact startWrite_timer_of_external (hstart hs)

/-- A Configuration write that keeps the trigger mode keeps the timer: an external mode found it disarmed (R187,
R32 item 5). -/
theorem configured_timer_of_sameMode {v : Word} {s : State} (hs : s.Inv) (hmode : extenOf v = s.exten) :
    (configured v s).timer = s.timer := by
  rw [configured, triggerModeChanged, hmode]
  by_cases hext : s.exten = 0
  · simp [hext]
  · rw [if_pos hext, disarmTimer_eq]
    exact (timer_none_of_external hs hext).symm

/-- A completion in an external mode finds the timer disarmed and leaves it so (R190, R195). -/
theorem complete_timer_of_external {s t : State} (hext : s.exten ≠ 0) (h : complete s = .next t) :
    t.timer = s.timer := by
  obtain ⟨c, -, -, -, htimer, -, rfl⟩ := complete_eq_next_iff_completed.1 h
  have hrearm : rearms s = false := by simp only [rearms, beq_eq_false_iff_ne.2 hext, Bool.false_and]
  simp [completed, hrearm, htimer]

/-- So does a drain, completion by completion (R224). -/
theorem drain_timer_of_external {n : Nat} {s t : State} (hext : s.exten ≠ 0) (h : drain n s = .next t) :
    t.timer = s.timer := by
  refine drain_induction (P := fun s t => s.exten ≠ 0 → t.timer = s.timer) (fun _ _ => rfl) ?_ n s t h hext
  intro s t u hst htu hext
  exact (htu (complete_exten hst ▸ hext)).trans (complete_timer_of_external hext hst)

/-- Settles O57: every other effect leaves the timer as it was. -/
theorem timerChangesOnlyWhereListed : Obligations.TimerChangesOnlyWhereListed := by
  unfold Obligations.TimerChangesOnlyWhereListed
  intro i s t hs h hne
  cases effect_of_exec h with
  | expire htimer ht => exact .inl rfl
  | reset => exact .inr (.inl rfl)
  | @control v _ u hu =>
    obtain ⟨-, htimer, hexten⟩ := enableWrite_keepsTimer hu
    refine .inr (.inr (.inl ⟨v, rfl, ?_⟩))
    by_contra hcommand
    obtain ⟨hdis, hstart⟩ := not_or.1 hcommand
    have hkeep : (controlAfterEnable v u).timer = u.timer :=
      controlAfterEnable_timer (Bool.eq_false_iff.2 hdis) fun h2 hext => hstart ⟨h2, hexten.symm.trans hext⟩
    exact hne (hkeep.trans htimer)
  | configuration v =>
    have hbegun : s.begun.Inv := { hs with }
    exact .inr (.inr (.inr ⟨v, rfl, fun hmode => hne (configured_timer_of_sameMode hbegun hmode)⟩))
  | edge line level hext ht => exact absurd (drain_timer_of_external hext ht) hne
  | sequence1 v hu => subst hu; exact absurd (lengthWritten_timer _) hne
  | dataRead v hi => exact absurd (lowerIrq_timer _) hne
  | _ => exact absurd rfl hne

end Sys2Proof.Proofs.ConversionTimer
end

section
/-! PROOFS. Feeds (R252, R253, R256): the accepted ones, the rejected ones, and what the pops after an accepted one
yield, in closed form (R254, R255). -/

namespace Sys2Proof.Proofs.Channels
open Sys2Proof Sys2Proof.Machine Sys2Proof.Proofs.Encoding Sys2Proof.Proofs.Converter

/-! Feeds -/

section
variable {s : State} {ch : BitVec 8} (hs : s.faulted = none)
include hs

/-- `FEEDV` in an unfaulted block, its checks in their order (R252). -/
theorem exec_feedv (v : Word) (r : Int) : exec (.feedv ch v r) s = .next (
    if s.params.nCh.val ≤ ch.toNat then answerHarness (.configError .channelOutOfRange) s.begun
    else if r = 0 then answerHarness (.configError .zeroRepeat) s.begun
    else answerHarness .ok (installFeed (channelAt ch.toNat) [v] r s.begun)) := by
  rw [exec, execFeedv, onEvent_of_unfaulted hs, apply_ite Host.Outcome.next, apply_ite Host.Outcome.next]
  rfl

/-- `FEEDS` of a parsed list in an unfaulted block, its checks in their order (R253). -/
theorem exec_feeds (vs : List Word) (r : Int) : exec (.feeds ch (some vs) r) s = .next (
    if s.params.nCh.val ≤ ch.toNat then answerHarness (.configError .channelOutOfRange) s.begun
    else if r = 0 then answerHarness (.configError .zeroRepeat) s.begun
    else if vs = [] then answerHarness (.configError .emptySequence) s.begun
    else answerHarness .ok (installFeed (channelAt ch.toNat) vs r s.begun)) := by
  rw [exec, execFeeds, onEvent_of_unfaulted hs, apply_ite Host.Outcome.next, apply_ite Host.Outcome.next,
    apply_ite Host.Outcome.next]
  rfl

/-- `FEEDS` of a list that did not parse, in an unfaulted block (R253). -/
theorem exec_feeds_unparsed (r : Int) : exec (.feeds ch none r) s = .next (
    if s.params.nCh.val ≤ ch.toNat then answerHarness (.configError .channelOutOfRange) s.begun
    else answerHarness (.configError .parseError) s.begun) := by
  rw [exec, execFeeds, onEvent_of_unfaulted hs, apply_ite Host.Outcome.next]
  rfl

theorem exec_feedv_accepted (hch : ch.toNat < s.params.nCh.val) {r : Int} (hr : r ≠ 0) (v : Word) :
    exec (.feedv ch v r) s = .next (answerHarness .ok (installFeed (channelAt ch.toNat) [v] r s.begun)) := by
  rw [exec_feedv hs, if_neg hch.not_ge, if_neg hr]

theorem exec_feeds_accepted (hch : ch.toNat < s.params.nCh.val) {r : Int} (hr : r ≠ 0) {vs : List Word}
    (hvs : vs ≠ []) :
    exec (.feeds ch (some vs) r) s = .next (answerHarness .ok (installFeed (channelAt ch.toNat) vs r s.begun)) := by
  rw [exec_feeds hs, if_neg hch.not_ge, if_neg hr, if_neg hvs]

end

/-- The entry a feed of a channel of the block writes is the channel's own. -/
theorem channelAt_of_named {s : State} {n : Nat} (h : n < s.params.nCh.val) : (channelAt n).val = n :=
  channelAt_val (by have := s.params.nCh.isLt; omega)

/-- Settles O50: the two checks, and what an accepted feed installs. -/
theorem feedValue : Obligations.FeedValue := by
  unfold Obligations.FeedValue
  refine ⟨fun ch v r => roundTrip (.feedv ch v r) rfl, fun s ch v r hs => ⟨fun hch => ?_, fun hch hr => ?_,
    fun hch hr => ⟨channelAt ch.toNat, channelAt_of_named hch, exec_feedv_accepted hs hch hr v⟩⟩⟩
  · rw [exec_feedv hs, if_pos hch]
    rfl
  · rw [exec_feedv hs, if_neg hch.not_ge, if_pos hr]
    rfl

/-- Settles O51: the four checks in their order, and what an accepted feed installs. -/
theorem feedSequence : Obligations.FeedSequence := by
  unfold Obligations.FeedSequence
  refine ⟨fun ch vs r => roundTrip (.feeds ch vs r) rfl, fun s ch r hs => ⟨fun vs hch => ?_, fun hch => ?_,
    fun vs hch hr => ?_, fun hch hr => ?_, fun vs hch hr hvs =>
      ⟨channelAt ch.toNat, channelAt_of_named hch, exec_feeds_accepted hs hch hr hvs⟩⟩⟩
  · cases vs with
    | none => rw [exec_feeds_unparsed hs, if_pos hch]; rfl
    | some vs => rw [exec_feeds hs, if_pos hch]; rfl
  · rw [exec_feeds_unparsed hs, if_neg hch.not_ge]
    rfl
  · rw [exec_feeds hs, if_neg hch.not_ge, if_pos hr]
    rfl
  · rw [exec_feeds hs, if_neg hch.not_ge, if_neg hr, if_pos rfl]
    rfl

/-! A source as it plays (R254) -/

/-- The passes that remain after `q` whole ones. -/
def passesAfter (passes : Passes) (q : Nat) : Passes :=
  match passes with
  | .finite r => .finite (r - q)
  | .forever => .forever

/-- A source of `passes` passes over `data`, at its `n`-th sample. -/
def playedTo (data : List Word) (passes : Passes) (n : Nat) : Channel :=
  { fed := true, data := data, pos := n % data.length, passesLeft := passesAfter passes (n / data.length) }

/-- A source of `passes` passes over `m` values has an `n`-th sample. -/
def Lasts (passes : Passes) (m n : Nat) : Prop :=
  match passes with
  | .finite r => n < r * m
  | .forever => True

theorem Lasts.of_succ {passes : Passes} {m n : Nat} (h : Lasts passes m (n + 1)) : Lasts passes m n := by
  cases passes with
  | finite r => exact Nat.lt_of_succ_lt h
  | forever => trivial

theorem nextSample_playedTo (data : List Word) (passes : Passes) (n : Nat) :
    nextSample (playedTo data passes n) = data[n % data.length]? := rfl

/-- What a feed installs is its source at the first sample (R252, R253, R257). -/
theorem installFeed_chan_self (c : Fin Config.maxCh) (values : List Word) (r : Int) (s : State) :
    (installFeed c values r s).chan[c] = playedTo values (passesOf r) 0 := by
  unfold passesOf
  split <;> simp [installFeed, playedTo, passesOf, passesAfter, *]

/-- The `p`-th sample of a pass, after `q` whole ones. -/
theorem playedTo_pass {data : List Word} (passes : Passes) (q : Nat) {p : Nat} (hp : p < data.length) :
    playedTo data passes (data.length * q + p) =
      { fed := true, data := data, pos := p, passesLeft := passesAfter passes q } := by
  have hm : 0 < data.length := Nat.zero_lt_of_lt hp
  rw [playedTo, Nat.mul_add_mod, Nat.mod_eq_of_lt hp, Nat.mul_add_div hm, Nat.div_eq_of_lt hp, Nat.add_zero]

section
variable {data : List Word} (hdata : data ≠ [])
include hdata

/-- A pop moves a source to its next sample while it has one: within the pass, or to the start of the next pass. -/
theorem popChannel_playedTo {passes : Passes} {n : Nat} (h : Lasts passes data.length (n + 1)) :
    popChannel (playedTo data passes n) = playedTo data passes (n + 1) := by
  have hm : 0 < data.length := List.length_pos_iff.2 hdata
  obtain ⟨q, p, hp, rfl⟩ : ∃ q p, p < data.length ∧ n = data.length * q + p :=
    ⟨_, _, Nat.mod_lt n hm, (Nat.div_add_mod n _).symm⟩
  rw [playedTo_pass passes q hp]
  rcases Nat.lt_or_eq_of_le hp with hin | hend
  · exact (popChannel_of_inside rfl hin).trans (playedTo_pass passes q hin).symm
  have hnext : data.length * q + p + 1 = data.length * (q + 1) + 0 := by rw [Nat.mul_succ]; omega
  rw [hnext] at h ⊢
  rw [playedTo_pass passes (q + 1) hm]
  cases passes with
  | forever => exact popChannel_of_forever rfl hend rfl
  | finite r =>
    have hr : q + 1 < r := Nat.lt_of_mul_lt_mul_left (h.trans_eq (Nat.mul_comm r _))
    have hbefore : r - q = r - (q + 2) + 2 := by omega
    have hafter : r - (q + 1) = r - (q + 2) + 1 := by omega
    rw [passesAfter, passesAfter, hbefore, hafter]
    exact popChannel_of_passLeft rfl hend rfl

/-- So `n` pops bring a source to its `n`-th sample where it has one. -/
theorem iterate_popChannel {passes : Passes} {n : Nat} (h : Lasts passes data.length n) :
    popChannel^[n] (playedTo data passes 0) = playedTo data passes n := by
  induction n with
  | zero => rfl
  | succ n ih => rw [Function.iterate_succ_apply', ih h.of_succ, popChannel_playedTo hdata h]

/-- The last sample of a source: the last value, on the last pass. -/
theorem playedTo_last {r : Nat} (hr : 0 < r) : playedTo data (.finite r) (data.length * r - 1) =
    { fed := true, data := data, pos := data.length - 1, passesLeft := .finite 1 } := by
  have hm : 0 < data.length := List.length_pos_iff.2 hdata
  have hlast : data.length * r - 1 = data.length * (r - 1) + (data.length - 1) := by
    obtain ⟨q, rfl⟩ := Nat.exists_eq_add_one.2 hr
    rw [Nat.mul_succ, Nat.add_sub_assoc hm, Nat.add_sub_cancel]
  rw [hlast, playedTo_pass _ _ (Nat.sub_one_lt_of_lt hm), passesAfter, Nat.sub_sub_self hr]

/-- Past its last sample a source stays there (R254). -/
theorem iterate_popChannel_of_exhausted {r n : Nat} (hr : 0 < r) (hn : r * data.length ≤ n) :
    popChannel^[n] (playedTo data (.finite r) 0) = playedTo data (.finite r) (data.length * r - 1) := by
  have hm : 0 < data.length := List.length_pos_iff.2 hdata
  have hpos : 0 < data.length * r := Nat.mul_pos hm hr
  have hlast : Lasts (.finite r) data.length (data.length * r - 1) := by
    simpa only [Lasts, Nat.mul_comm r] using Nat.sub_one_lt_of_lt hpos
  have hstays : popChannel (playedTo data (.finite r) (data.length * r - 1)) =
      playedTo data (.finite r) (data.length * r - 1) := by
    rw [playedTo_last hdata hr]
    exact popChannel_of_lastPass rfl (Nat.sub_add_cancel hm) rfl
  obtain ⟨k, rfl⟩ := Nat.exists_eq_add_of_le' (show data.length * r - 1 ≤ n by rw [Nat.mul_comm] at hn; omega)
  rw [Function.iterate_add_apply, iterate_popChannel hdata hlast, Function.iterate_fixed hstays]

/-- The `n`-th pop after a feed of `data` with repeat count `r`, in closed form (R255). -/
theorem nextSample_after_feed {r : Int} (hr : r ≠ 0) (n : Nat) :
    nextSample (popChannel^[n] (playedTo data (passesOf r) 0)) =
      if r < 0 ∨ n < r.toNat * data.length then data[n % data.length]? else data[data.length - 1]? := by
  by_cases hneg : r < 0
  · rw [passesOf, if_pos hneg, if_pos (.inl hneg), iterate_popChannel (passes := .forever) hdata trivial,
      nextSample_playedTo]
  rw [passesOf, if_neg hneg]
  by_cases hn : n < r.toNat * data.length
  · rw [if_pos (.inr hn), iterate_popChannel (passes := .finite r.toNat) hdata hn, nextSample_playedTo]
  · have hpos : 0 < r.toNat := by omega
    rw [if_neg (not_or.2 ⟨hneg, hn⟩), iterate_popChannel_of_exhausted hdata hpos (Nat.le_of_not_lt hn),
      playedTo_last hdata hpos]
    rfl

end

/-- A feed of the entry `c` of the store names `c`. -/
theorem toNat_ofNat_channel (c : Fin Config.maxCh) : (BitVec.ofNat 8 c.val).toNat = c.val := by
  have hc : c.val < 32 := c.isLt
  rw [BitVec.toNat_ofNat, Nat.mod_eq_of_lt (by omega)]

/-- The entry an accepted feed of `c` leaves. -/
theorem fed_chan_self (c : Fin Config.maxCh) (values : List Word) (r : Int) (s : State) :
    (answerHarness .ok (installFeed (channelAt (BitVec.ofNat 8 c.val).toNat) values r s)).chan[c] =
      playedTo values (passesOf r) 0 := by
  have hc : channelAt (BitVec.ofNat 8 c.val).toNat = c :=
    Fin.ext (by rw [toNat_ofNat_channel, channelAt_val c.isLt])
  rw [hc]
  exact installFeed_chan_self c values r s

/-- Settles O52: a feed of one value is that of a list of length 1. -/
theorem popsAfterFeed : Obligations.PopsAfterFeed := by
  unfold Obligations.PopsAfterFeed
  refine ⟨fun s ch data r hs hch hr hdata => ?_, fun s ch v r hs hch hr => ?_⟩
  all_goals rw [← toNat_ofNat_channel ch] at hch
  · refine ⟨_, exec_feeds_accepted hs hch hr hdata, fun n => ?_⟩
    rw [fed_chan_self, nextSample_after_feed hdata hr]
  · refine ⟨_, exec_feedv_accepted hs hch hr v, fun n => ?_⟩
    rw [fed_chan_self, nextSample_after_feed (List.cons_ne_nil v []) hr, List.length_singleton, Nat.mod_one, ite_self]
    rfl

end Sys2Proof.Proofs.Channels
end

section
/-! PROOFS. What a bus access answers does not depend on the contents of the channels (R48, R250): each operation of
a bus access does the same in two states that differ in their channels alone. -/

namespace Sys2Proof.Proofs.Channels
open Sys2Proof Sys2Proof.Machine Sys2Proof.Proofs.BlockState

/-- The state with other channels. -/
def withChannels (ch : Vector Channel Config.maxCh) (s : State) : State := { s with chan := ch }

/-- The answer with other channels: a stop stays as it is. -/
def answerWithChannels (ch : Vector Channel Config.maxCh) (r : Result) : Result :=
  andThen r fun t => .next (withChannels ch t)

/-- Other channels before `f` are other channels after it (`put` places them), and nothing else. -/
def IgnoresChannels {α : Type} (put : Vector Channel Config.maxCh → α → α) (f : State → α) : Prop :=
  ∀ ch s, f (withChannels ch s) = put ch (f s)

/-! Putting operations together -/

section
variable {α : Type} {put : Vector Channel Config.maxCh → α → α}

theorem IgnoresChannels.comp {f : State → State} {g : State → α} (hg : IgnoresChannels put g)
    (hf : IgnoresChannels withChannels f) : IgnoresChannels put fun s => g (f s) :=
  fun ch s => (congrArg g (hf ch s)).trans (hg ch (f s))

/-- A choice by a condition that does not read the channels. -/
theorem IgnoresChannels.ite {c : State → Prop} [DecidablePred c] {f g : State → α}
    (hc : ∀ ch s, c (withChannels ch s) ↔ c s) (hf : IgnoresChannels put f) (hg : IgnoresChannels put g) :
    IgnoresChannels put fun s => if c s then f s else g s := by
  intro ch s
  simp only [hc ch s, hf ch s, hg ch s, apply_ite (put ch)]

end

theorem ignoresChannels_id : IgnoresChannels withChannels id := fun _ _ => rfl

theorem ignoresChannels_next : IgnoresChannels answerWithChannels .next := fun _ _ => rfl

theorem IgnoresChannels.andThen {f g : State → Result} (hf : IgnoresChannels answerWithChannels f)
    (hg : IgnoresChannels answerWithChannels g) :
    IgnoresChannels answerWithChannels fun s => andThen (f s) g := by
  intro ch s
  change Machine.andThen (f (withChannels ch s)) g = answerWithChannels ch (Machine.andThen (f s) g)
  rw [hf ch s]
  cases f s with
  | next t => exact hg ch t
  | fault x => rfl
  | refused x => rfl

/-- A faulted block refuses the event (R289). -/
theorem onEvent_of_faulted {s : State} {x : Fault} (h : s.faulted = some x) (body : State → Result) :
    onEvent s body = .refused .blockFaulted := by rw [onEvent, h]

theorem IgnoresChannels.onEvent {body : State → Result} (hbody : IgnoresChannels answerWithChannels body) :
    IgnoresChannels answerWithChannels fun s => onEvent s body := by
  intro ch s
  change Machine.onEvent (withChannels ch s) body = answerWithChannels ch (Machine.onEvent s body)
  cases hs : s.faulted with
  | none =>
    rw [onEvent_of_unfaulted hs, onEvent_of_unfaulted (s := withChannels ch s) hs]
    exact hbody ch s.begun
  | some x =>
    rw [onEvent_of_faulted hs, onEvent_of_faulted (s := withChannels ch s) hs]
    rfl

/-- An event whose processing is one update. -/
theorem IgnoresChannels.event {f : State → State} (hf : IgnoresChannels withChannels f) :
    IgnoresChannels answerWithChannels fun s => Machine.onEvent s fun u => .next (f u) :=
  (ignoresChannels_next.comp hf).onEvent

/-! The operations of a bus access -/

theorem armTimer_ignoresChannels : IgnoresChannels withChannels armTimer := fun ch s => by
  rw [armTimer_eq, armTimer_eq]
  rfl

theorem disarmTimer_ignoresChannels : IgnoresChannels withChannels disarmTimer := fun ch s => by
  rw [disarmTimer_eq, disarmTimer_eq]
  rfl

theorem applyLength_ignoresChannels : IgnoresChannels withChannels applyLength := fun ch s => by
  rw [applyLength_eq, applyLength_eq]
  rfl

theorem lengthWritten_ignoresChannels : IgnoresChannels withChannels lengthWritten := fun ch s => by
  rw [lengthWritten_eq, lengthWritten_eq]
  rfl

theorem consumeResult_ignoresChannels : IgnoresChannels withChannels consumeResult := fun ch s => by
  rw [consumeResult_eq, consumeResult_eq]
  rfl

theorem unnamedAccess_ignoresChannels (off : Offset) (d : Diag) :
    IgnoresChannels withChannels (unnamedAccess off d) := fun ch s => by
  rw [unnamedAccess_eq, unnamedAccess_eq]
  rfl

theorem storeControl_ignoresChannels (v : Word) : IgnoresChannels withChannels (storeControl v) := fun ch s => by
  rw [storeControl_eq, storeControl_eq]
  rfl

/-- Selection reads the slots, not the channels they name (R189). -/
theorem selectChannel_ignoresChannels (i : Fin 16) : IgnoresChannels answerWithChannels (selectChannel i) :=
  .ite (fun _ _ => Iff.rfl) (fun _ _ => rfl) (fun _ _ => rfl)

theorem enableWrite_ignoresChannels : IgnoresChannels answerWithChannels enableWrite :=
  have hselect : IgnoresChannels answerWithChannels fun s =>
      selectChannel 0 { s with enabled := true, adrdy := true } :=
    (selectChannel_ignoresChannels 0).comp fun _ _ => rfl
  .ite (fun _ _ => Iff.rfl) ignoresChannels_next (.ite (fun _ _ => Iff.rfl) (fun _ _ => rfl) hselect)

theorem disableWrite_ignoresChannels : IgnoresChannels withChannels disableWrite :=
  have hdisarm : IgnoresChannels withChannels fun s => disarmTimer { s with enabled := false } :=
    disarmTimer_ignoresChannels.comp fun _ _ => rfl
  have hclear : IgnoresChannels withChannels fun s =>
      { s with cursor := 0, currentChannel := none, scanActive := false } := fun _ _ => rfl
  .ite (fun _ _ => Iff.rfl) (applyLength_ignoresChannels.comp (hclear.comp hdisarm)) ignoresChannels_id

theorem startWrite_ignoresChannels : IgnoresChannels withChannels startWrite :=
  have hscan : IgnoresChannels withChannels fun s => { s with scanActive := true } := fun _ _ => rfl
  .ite (fun _ _ => Iff.rfl)
    (.ite (fun _ _ => Iff.rfl) (armTimer_ignoresChannels.comp hscan) hscan) (fun _ _ => rfl)

theorem triggerModeChanged_ignoresChannels (old new : BitVec 2) :
    IgnoresChannels withChannels (triggerModeChanged old new) :=
  .ite (fun _ _ => Iff.rfl) disarmTimer_ignoresChannels
    (.ite (fun _ _ => Iff.rfl) armTimer_ignoresChannels ignoresChannels_id)

/-! The accesses -/

theorem unnamedRead_ignoresChannels (off : Offset) : IgnoresChannels answerWithChannels (unnamedRead off) :=
  have hanswer : IgnoresChannels withChannels (answerRead (.word 0)) := fun _ _ => rfl
  (hanswer.comp (unnamedAccess_ignoresChannels off _)).event

theorem unnamedWrite_ignoresChannels (off : Offset) (v : Word) :
    IgnoresChannels answerWithChannels (unnamedWrite off v) :=
  (unnamedAccess_ignoresChannels off _).event

/-- A Data-register read that answers `value` (R147 to R149). -/
theorem dataRead_ignoresChannels {value : State → ReadValue}
    (hvalue : ∀ ch s, value (withChannels ch s) = value s) : IgnoresChannels answerWithChannels fun s =>
      onEvent s fun u => .next (answerRead (value u) (consumeResult u)) :=
  .event fun ch s => by
    rw [hvalue, consumeResult_ignoresChannels]
    rfl

/-- A Control write, command by command (R138). -/
theorem execWr32Cr_ignoresChannels (v : Word) : IgnoresChannels answerWithChannels (execWr32Cr v) :=
  have henable : IgnoresChannels answerWithChannels fun s =>
      if v.getLsbD adenBit then enableWrite s else .next s :=
    .ite (fun _ _ => Iff.rfl) enableWrite_ignoresChannels ignoresChannels_next
  have hdisable : IgnoresChannels withChannels fun s => if v.getLsbD addisBit then disableWrite s else s :=
    .ite (fun _ _ => Iff.rfl) disableWrite_ignoresChannels ignoresChannels_id
  have hstart : IgnoresChannels withChannels fun s => if v.getLsbD adstartBit then startWrite s else s :=
    .ite (fun _ _ => Iff.rfl) startWrite_ignoresChannels ignoresChannels_id
  .onEvent (henable.andThen
    (ignoresChannels_next.comp ((storeControl_ignoresChannels v).comp (hstart.comp hdisable))))

/-- A Configuration write: the fields, then the trigger-mode procedure (R140). -/
theorem execWr32Cfgr_ignoresChannels (v : Word) : IgnoresChannels answerWithChannels (execWr32Cfgr v) :=
  .event fun ch s => by
    have hmode := triggerModeChanged_ignoresChannels s.exten (extenOf v) ch
      { s with dmngt := dmngtOf v, res := resOf v, extsel := extselOf v, exten := extenOf v }
    exact congrArg (fun u : State => { u with cont := contOf v, cfgrStore := v &&& u.params.cfgrStorage }) hmode

/-- A write of Sequence register 1: the length, then the slots (R146). -/
theorem execWr32Sqr1_ignoresChannels (v : Word) : IgnoresChannels answerWithChannels (execWr32Sqr1 v) :=
  .event fun ch s =>
    congrArg (fun u : State => { u with sq := storeSqr1 v u.sq, sqr1Store := v &&& u.params.sqr1Storage })
      (lengthWritten_ignoresChannels ch { s with l := lengthOf v })

/-- A bus access is made of operations that ignore the channels: what is no edge, expiry, feed or reset. -/
theorem exec_ignoresChannels {i : Instr} (hexpire : i ≠ .expire) (hreset : i ≠ .reset)
    (hedge : ∀ line level, i ≠ .edge line level) (hfeedv : ∀ c v r, i ≠ .feedv c v r)
    (hfeeds : ∀ c vs r, i ≠ .feeds c vs r) : IgnoresChannels answerWithChannels fun s => exec i s := by
  unfold exec
  cases i with
  | expire => exact absurd rfl hexpire
  | reset => exact absurd rfl hreset
  | edge line level => exact absurd rfl (hedge line level)
  | feedv c v r => exact absurd rfl (hfeedv c v r)
  | feeds c vs r => exact absurd rfl (hfeeds c vs r)
  | wr32Cr v => exact execWr32Cr_ignoresChannels v
  | wr32Cfgr v => exact execWr32Cfgr_ignoresChannels v
  | wr32Sqr1 v => exact execWr32Sqr1_ignoresChannels v
  | rd32Dr | rd16Dr | rd8Dr => exact dataRead_ignoresChannels fun _ _ => rfl
  | busSizeCode3 write off => exact fun _ _ => rfl
  | otherDescriptor desc => exact fun _ _ => rfl
  | rd32Isr | rd32Ier | rd32Cr | rd32Cfgr | rd32Smpr1 | rd32Smpr2 | rd32Sqr1 | rd32Sqr2 | rd32Sqr3 | rd32Sqr4
  | wr32Isr | wr32Ier | wr32Smpr1 | wr32Smpr2 | wr32Sqr2 | wr32Sqr3 | wr32Sqr4 | wr32Dr | rd16Narrow | rd8Narrow
  | wr16Narrow | wr8Narrow =>
    exact .event fun _ _ => rfl
  | rd32Inert10 | rd32Inert1C | rd32Inert20 | rd32Inert24 | rd32Inert4C | rd32Inert60 | rd32Inert64 | rd32Inert68
  | rd32Inert6C | rd32Inert80 | rd32Inert84 | rd32Inert88 | rd32Inert8C | rd32InertA0 | rd32InertA4 | rd32InertB0
  | rd32InertB4 | rd32InertB8 | rd32InertBC | rd32InertC0 | rd32InertC4 | rd32InertC8 | rd32Unmapped =>
    exact unnamedRead_ignoresChannels _
  | wr32Inert10 v | wr32Inert1C v | wr32Inert20 v | wr32Inert24 v | wr32Inert4C v | wr32Inert60 v | wr32Inert64 v
  | wr32Inert68 v | wr32Inert6C v | wr32Inert80 v | wr32Inert84 v | wr32Inert88 v | wr32Inert8C v | wr32InertA0 v
  | wr32InertA4 v | wr32InertB0 v | wr32InertB4 v | wr32InertB8 v | wr32InertBC v | wr32InertC0 v | wr32InertC4 v
  | wr32InertC8 v | wr32Unmapped _ v =>
    exact unnamedWrite_ignoresChannels _ v

/-- Settles O59: the answer with other channels is the obligation's, outcome by outcome. -/
theorem sampleStoreInvisibleToBus : Obligations.SampleStoreInvisibleToBus := by
  unfold Obligations.SampleStoreInvisibleToBus
  intro i s ch hexpire hreset hedge hfeedv hfeeds
  exact exec_ignoresChannels hexpire hreset hedge hfeedv hfeeds ch s

end Sys2Proof.Proofs.Channels
end

section
/-! PROOFS. How each event is processed (R10): it asks first for a fault on record (R130, R289), and then only the
operations that select a channel can fault (R189, R271, R279). -/

namespace Sys2Proof.Proofs.Exceptions
open Sys2Proof Sys2Proof.Machine

/-- Where a fault `f` comes from, by the event and the state `s` in which its processing begins: the operations
that select a channel. -/
inductive Faulting (f : Fault) : Instr → State → Prop
  /-- R138, R183. -/
  | control (v : Word) {s : State} (h : enableWrite s = .fault f) : Faulting f (.wr32Cr v) s
  /-- R238. -/
  | expire {s : State} (htimer : s.timer = some s.now) (h : complete { s with timer := none } = .fault f) :
      Faulting f .expire s
  /-- R220, R224. -/
  | edge (line : BitVec 5) (level : Bool) {s : State} (hext : s.exten ≠ 0) (hen : s.enabled = true)
      (h : drain s.seqLen.val s = .fault f) : Faulting f (.edge line level) s

/-- Only these three events have such an operation. -/
theorem Faulting.event {f : Fault} {i : Instr} {s : State} (h : Faulting f i s) :
    (∃ v, i = .wr32Cr v) ∨ i = .expire ∨ ∃ line level, i = .edge line level := by
  cases h with
  | control v h => exact .inl ⟨v, rfl⟩
  | expire htimer h => exact .inr (.inl rfl)
  | edge line level hext hen h => exact .inr (.inr ⟨line, level, rfl⟩)

/-- The answer `r` of event `i` in state `s` is that of a processing which faults in a selecting operation only. -/
def Processed (i : Instr) (s : State) (r : Result) : Prop :=
  ∃ body, r = onEvent s body ∧ ∀ u f, body u = .fault f → Faulting f i u

/-- An event whose processing is one update. -/
theorem processed_update (i : Instr) (s : State) (g : State → State) :
    Processed i s (onEvent s fun u => .next (g u)) :=
  ⟨_, rfl, fun _ _ h => by cases h⟩

theorem processed_unnamedRead (i : Instr) (off : Offset) (s : State) : Processed i s (unnamedRead off s) :=
  processed_update i s _

theorem processed_unnamedWrite (i : Instr) (off : Offset) (v : Word) (s : State) :
    Processed i s (unnamedWrite off v s) := processed_update i s _

/-- After its ADEN part a Control write does not fault (R138). -/
theorem processed_execWr32Cr (v : Word) (s : State) : Processed (.wr32Cr v) s (execWr32Cr v s) := by
  refine ⟨_, rfl, fun u f h => ?_⟩
  obtain h | ⟨w, -, h⟩ := andThen_eq_fault_iff.1 h
  · split at h
    · exact .control v h
    · cases h
  · cases h

/-- An expiry faults in its completion only (R238). -/
theorem processed_execExpire (s : State) : Processed .expire s (execExpire s) := by
  refine ⟨_, rfl, fun u f h => ?_⟩
  split at h
  · cases h
  · next deadline hd =>
    split at h
    · next hnow => exact .expire (hnow ▸ hd) h
    · cases h

/-- An edge faults in its drain only (R220). -/
theorem processed_execEdge (line : BitVec 5) (level : Bool) (s : State) :
    Processed (.edge line level) s (execEdge line level s) := by
  refine ⟨_, rfl, fun u f h => ?_⟩
  split_ifs at h with hline hext hsel hqual hen hstart
  exact .edge line level hext (by simpa using hen) h

/-- A feed answers its errors to the harness (R252, R256, R271). -/
theorem processed_execFeedv (ch : BitVec 8) (value : Word) (rep : Int) (s : State) :
    Processed (.feedv ch value rep) s (execFeedv ch value rep s) := by
  refine ⟨_, rfl, fun u f h => ?_⟩
  split_ifs at h

/-- So does a feed of a list, the parse error among them (R253). -/
theorem processed_execFeeds (ch : BitVec 8) (values : Option (List Word)) (rep : Int) (s : State) :
    Processed (.feeds ch values rep) s (execFeeds ch values rep s) := by
  refine ⟨_, rfl, fun u f h => ?_⟩
  cases values with
  | none => split_ifs at h
  | some vs => dsimp only at h; split_ifs at h

/-- Every instruction is processed, or refused in every state (R122). -/
theorem exec_processed_or_refused (i : Instr) (s : State) :
    Processed i s (exec i s) ∨ ∃ r, exec i s = .refused r := by
  unfold exec
  cases i with
  | busSizeCode3 write off => exact .inr ⟨.reservedSizeCode, rfl⟩
  | otherDescriptor desc => exact .inr ⟨.notAnEvent, rfl⟩
  | wr32Cr v => exact .inl (processed_execWr32Cr v s)
  | expire => exact .inl (processed_execExpire s)
  | edge line level => exact .inl (processed_execEdge line level s)
  | feedv ch value rep => exact .inl (processed_execFeedv ch value rep s)
  | feeds ch values rep => exact .inl (processed_execFeeds ch values rep s)
  | rd32Inert10 | rd32Inert1C | rd32Inert20 | rd32Inert24 | rd32Inert4C | rd32Inert60 | rd32Inert64 | rd32Inert68
  | rd32Inert6C | rd32Inert80 | rd32Inert84 | rd32Inert88 | rd32Inert8C | rd32InertA0 | rd32InertA4 | rd32InertB0
  | rd32InertB4 | rd32InertB8 | rd32InertBC | rd32InertC0 | rd32InertC4 | rd32InertC8 | rd32Unmapped =>
    exact .inl (processed_unnamedRead _ _ s)
  | wr32Inert10 v | wr32Inert1C v | wr32Inert20 v | wr32Inert24 v | wr32Inert4C v | wr32Inert60 v | wr32Inert64 v
  | wr32Inert68 v | wr32Inert6C v | wr32Inert80 v | wr32Inert84 v | wr32Inert88 v | wr32Inert8C v | wr32InertA0 v
  | wr32InertA4 v | wr32InertB0 v | wr32InertB4 v | wr32InertB8 v | wr32InertBC v | wr32InertC0 v | wr32InertC4 v
  | wr32InertC8 v | wr32Unmapped _ v =>
    exact .inl (processed_unnamedWrite _ _ v s)
  | _ => exact .inl (processed_update _ s _)

/-- Whatever the event, if it faults, the fault comes from one of the operations that select a channel. -/
theorem faulting_of_exec {i : Instr} {s : State} {f : Fault} (h : exec i s = .fault f) :
    Faulting f i s.begun := by
  obtain ⟨body, hexec, hfault⟩ | ⟨r, hexec⟩ := exec_processed_or_refused i s
  · rw [hexec] at h
    obtain ⟨-, h⟩ := onEvent_eq_fault_iff.1 h
    exact hfault _ f h
  · rw [hexec] at h
    cases h

end Sys2Proof.Proofs.Exceptions
end

section
/-! PROOFS. A block with a fault on record (R279, R289): it refuses every event, and no event that answers a next
state records a fault or clears one. -/

namespace Sys2Proof.Proofs.Exceptions
open Sys2Proof Sys2Proof.Machine Sys2Proof.Proofs.BlockState Sys2Proof.Proofs.RegisterBank
  Sys2Proof.Proofs.Converter Sys2Proof.Proofs.Channels

/-- Settles O9: an event that is processed finds the fault first, and the others are refused anyway. -/
theorem faultedBlockRefusesEveryEvent : Obligations.FaultedBlockRefusesEveryEvent := by
  unfold Obligations.FaultedBlockRefusesEveryEvent
  intro i s hs
  obtain ⟨x, hx⟩ := Option.ne_none_iff_exists'.1 hs
  obtain ⟨body, hexec, -⟩ | hrefused := exec_processed_or_refused i s
  · exact ⟨.blockFaulted, hexec.trans (onEvent_of_faulted hx body)⟩
  · exact hrefused

/-- Only an unfaulted block answers a next state (R289). -/
theorem unfaulted_of_exec {i : Instr} {s t : State} (h : exec i s = .next t) : s.faulted = none := by
  by_contra hs
  obtain ⟨r, hr⟩ := faultedBlockRefusesEveryEvent i s hs
  rw [hr] at h
  cases h

theorem controlAfterEnable_faulted (v : Word) (s : State) : (controlAfterEnable v s).faulted = s.faulted := by
  rw [controlAfterEnable_eq, storeControl_faulted, startPart_faulted, (disablePart_keeps v s).1]

theorem enableWrite_faulted {s t : State} (h : t = s ∨ enableWrite s = .next t) : t.faulted = s.faulted := by
  obtain rfl | h := h
  · rfl
  · obtain rfl | rfl | ⟨-, -, -, rfl⟩ := enableWrite_cases h <;> rfl

theorem configured_faulted (v : Word) (s : State) : (configured v s).faulted = s.faulted := by
  unfold configured triggerModeChanged
  split_ifs <;> simp

theorem complete_faulted {s t : State} (h : complete s = .next t) : t.faulted = s.faulted := by
  obtain ⟨c, -, -, -, -, -, rfl⟩ := complete_eq_next_iff_completed.1 h
  rfl

theorem drain_faulted {n : Nat} {s t : State} (h : drain n s = .next t) : t.faulted = s.faulted :=
  drain_induction (P := fun s t => t.faulted = s.faulted) (fun _ => rfl)
    (fun _ _ _ hst htu => htu.trans (complete_faulted hst)) n s t h

/-- No effect of an event records a fault or clears one, `RESET` included (R279). -/
theorem effect_faulted {i : Instr} {s t : State} (h : Effect i s t) : t.faulted = s.faulted := by
  cases h with
  | dataRead v hi => exact lowerIrq_faulted _
  | control v hu => exact (controlAfterEnable_faulted v _).trans (enableWrite_faulted hu)
  | configuration v => exact configured_faulted v s
  | sequence1 v hu => subst hu; exact lengthWritten_faulted _
  | edge line level hext ht => exact drain_faulted ht
  | expire htimer ht => exact (complete_faulted ht :)
  | reset => exact (lowerIrq_faulted _).trans (disarmTimer_faulted s)
  | _ => rfl

/-- Settles O15: the state before is unfaulted, and the effect of the event leaves that as it is. -/
theorem stepKeepsUnfaulted : Obligations.StepKeepsUnfaulted := by
  unfold Obligations.StepKeepsUnfaulted
  intro i s t h
  have hs : s.faulted = none := unfaulted_of_exec h
  exact ⟨hs, (effect_faulted (effect_of_exec h)).trans hs⟩

end Sys2Proof.Proofs.Exceptions
end

section
/-! PROOFS. The block's one fault (R189, R271, R279): the slots at which the selecting operations fault. -/

namespace Sys2Proof.Proofs.Exceptions
open Sys2Proof Sys2Proof.Machine Sys2Proof.Proofs.BlockState Sys2Proof.Proofs.Converter

/-- `f` is the fault of a selection at a position the cursor of `s` can reach, whose slot names no channel (R189,
R279, R303). -/
def UnnamedSelection (s : State) (f : Fault) : Prop :=
  ∃ p : Fin 16, f = .channelOutOfRange p s.sq[p] ∧ s.params.nCh.val ≤ s.sq[p].toNat ∧
    (p.val < s.seqLen.val ∨ p.val ≤ s.l.toNat)

/-- An enabling write selects position 0 (R183). -/
theorem unnamedSelection_of_enableWrite {s : State} {f : Fault} (h : enableWrite s = .fault f) :
    UnnamedSelection s f := by
  unfold enableWrite at h
  split_ifs at h
  obtain ⟨hslot, rfl⟩ := selectChannel_eq_fault_iff.1 h
  exact ⟨0, rfl, hslot, .inr (Nat.zero_le _)⟩

/-- A completion inside R190's precondition selects the position after the cursor's, in the sequence in force
(R189, R194). -/
theorem unnamedSelection_of_complete {s : State} {f : Fault} (hs : s.Inv) (hen : s.enabled = true)
    (ht : s.timer = none) (h : complete s = .fault f) : UnnamedSelection s f := by
  have hlen : s.seqLen ≠ 0 := seqLen_ne_zero_of_enabled hs hen
  obtain ⟨c, hc⟩ := Option.isSome_iff_exists.1 (hs.channel_of_enabled hen)
  obtain hslot | hslot := Nat.lt_or_ge s.sq[(advanceCursor s).cursor].toNat s.params.nCh.val
  · rw [complete_eq_next_iff_completed.2 ⟨c, hc, hen, hlen, ht, hslot, rfl⟩] at h
    cases h
  · rw [complete_of_unnamedSlot hc hen hlen ht hslot] at h
    cases h
    exact ⟨_, rfl, hslot, .inl (advanceCursor_lt hs hlen)⟩

/-- An expiry consumes the timer before its completion (R238). -/
theorem unnamedSelection_of_expire {s : State} {f : Fault} (hs : s.Inv) (htimer : s.timer = some s.now)
    (h : complete { s with timer := none } = .fault f) : UnnamedSelection s f := by
  have hoff : ({ s with timer := none } : State).Inv := { inv_retimed hs none s.exten s.now nofun with }
  obtain ⟨hen, -, -, -⟩ := inv_of_armed hs htimer
  exact (unnamedSelection_of_complete hoff hen rfl h :)

/-- A completion leaves the slots and the written length alone, and the length in force becomes the written one or
stays (R196): what the cursor can reach after it, it could reach before. -/
theorem UnnamedSelection.before_complete {s u : State} {f : Fault} (hu : complete s = .next u)
    (h : UnnamedSelection u f) : UnnamedSelection s f := by
  obtain ⟨c, -, -, -, -, -, rfl⟩ := complete_eq_next_iff_completed.1 hu
  obtain ⟨p, hf, hslot, hp⟩ := h
  refine ⟨p, hf, hslot, hp.elim (fun hlt => ?_) .inr⟩
  rw [completed_seqLen_val] at hlt
  split at hlt
  · exact .inr (Nat.le_of_lt_succ hlt)
  · exact .inl hlt

/-- A completion leaves the block enabled (R190). -/
theorem complete_enabled {s t : State} (h : complete s = .next t) : t.enabled = true := by
  obtain ⟨c, -, hen, -, -, -, rfl⟩ := complete_eq_next_iff_completed.1 h
  exact hen

/-- A drain faults in one of its completions (R224): induction over their number. -/
theorem unnamedSelection_of_drain {n : Nat} {s : State} {f : Fault} (hs : s.Inv) (hen : s.enabled = true)
    (hext : s.exten ≠ 0) (h : drain n s = .fault f) : UnnamedSelection s f := by
  induction n generalizing s with
  | zero => cases h
  | succ n ih =>
    obtain h | ⟨u, hu, h⟩ := andThen_eq_fault_iff.1 h
    · exact unnamedSelection_of_complete hs hen (timer_none_of_external hs hext) h
    · have hinv : u.Inv := complete_inv hs (fun h0 => absurd h0 hext) hu
      exact (ih hinv (complete_enabled hu) (complete_exten hu ▸ hext) h).before_complete hu

theorem Faulting.unnamedSelection {f : Fault} {i : Instr} {s : State} (hs : s.Inv) (h : Faulting f i s) :
    UnnamedSelection s f := by
  cases h with
  | control v h => exact unnamedSelection_of_enableWrite h
  | expire htimer h => exact unnamedSelection_of_expire hs htimer h
  | edge line level hext hen h => exact unnamedSelection_of_drain hs hen hext h

/-- Under the invariants an event faults only at a slot the cursor can reach. -/
theorem unnamedSelection_of_exec {i : Instr} {s : State} {f : Fault} (hs : s.Inv) (h : exec i s = .fault f) :
    UnnamedSelection s f := by
  have hbegun : s.begun.Inv := { hs with }
  exact ((faulting_of_exec h).unnamedSelection hbegun :)

/-- Settles O16: the fault is that of an unnamed selection, the event one of those that select. -/
theorem onlySelectFaults : Obligations.OnlySelectFaults := by
  unfold Obligations.OnlySelectFaults
  intro i s f hs h
  obtain ⟨p, hf, hslot, -⟩ := unnamedSelection_of_exec hs h
  exact ⟨p, hf, hslot, (faulting_of_exec h).event⟩

/-- Settles O17: a slot that faults is one the cursor can reach. -/
theorem namedSlotsNeverFault : Obligations.NamedSlotsNeverFault := by
  unfold Obligations.NamedSlotsNeverFault
  intro i s hs hnamed f h
  obtain ⟨p, -, hslot, hp⟩ := unnamedSelection_of_exec hs h
  exact hslot.not_gt (hnamed p hp)

/-- Settles O18: a slot has five bits, so that it names one of 32 channels (R8, R279). -/
theorem noFaultWithAllChannels : Obligations.NoFaultWithAllChannels := by
  unfold Obligations.NoFaultWithAllChannels
  intro i s hs hall f h
  obtain ⟨p, -, hslot, -⟩ := onlySelectFaults i s f hs h
  rw [hall] at hslot
  exact hslot.not_gt s.sq[p].isLt

end Sys2Proof.Proofs.Exceptions
end

section
/-! PROOFS. Which events lower the interrupt line (R30, R147, R275, R276, R300). -/

namespace Sys2Proof.Proofs.Exceptions
open Sys2Proof Sys2Proof.Machine Sys2Proof.Proofs.BlockState Sys2Proof.Proofs.RegisterBank
  Sys2Proof.Proofs.Converter

/-- A completion never lowers the line (R193). -/
theorem complete_keepsIrqHigh {s t : State} (h : complete s = .next t) (hirq : s.irq = true) : t.irq = true := by
  obtain ⟨c, -, -, -, -, -, rfl⟩ := complete_eq_next_iff_completed.1 h
  simp only [completed, hirq, Bool.true_or]

/-- Nor does a drain, completion by completion (R224). -/
theorem drain_keepsIrqHigh {n : Nat} {s t : State} (h : drain n s = .next t) : s.irq = true → t.irq = true :=
  drain_induction (P := fun s t => s.irq = true → t.irq = true) (fun _ => id)
    (fun _ _ _ hst htu hirq => htu (complete_keepsIrqHigh hst hirq)) n s t h

/-- `RESET` ends with the line low (R300). -/
theorem exec_reset_lowersIrq {s : State} (hs : s.faulted = none) : ∃ t, exec .reset s = .next t ∧ t.irq = false := by
  rw [exec, execReset, onEvent_of_unfaulted hs, lowerIrq_eq]
  exact ⟨_, rfl, rfl⟩

/-- So does a Data-register read (R147 to R149). -/
theorem dataRead_lowersIrq {s : State} (hs : s.faulted = none) (value : State → ReadValue) :
    ∃ t, onEvent s (fun u => .next (answerRead (value u) (consumeResult u))) = .next t ∧ t.irq = false :=
  ⟨_, read_consumes hs value, rfl⟩

/-- Settles O55: every effect but a Data-register read and `RESET` leaves the line as it was or raises it, and
these two lower it. -/
theorem interruptFallsOnlyOnDataReadOrReset : Obligations.InterruptFallsOnlyOnDataReadOrReset := by
  unfold Obligations.InterruptFallsOnlyOnDataReadOrReset
  constructor
  · intro i s t h hhigh hlow
    have hfall : t.irq ≠ s.irq := by simp [hlow, hhigh]
    cases effect_of_exec h with
    | dataRead v hi => exact hi.imp_right (·.imp_right .inl)
    | reset => exact .inr (.inr (.inr rfl))
    | expire htimer ht => exact absurd (complete_keepsIrqHigh ht hhigh) (Bool.eq_false_iff.1 hlow)
    | edge line level hext ht => exact absurd (drain_keepsIrqHigh ht hhigh) (Bool.eq_false_iff.1 hlow)
    | control v hu => exact absurd ((controlAfterEnable_irq v _).trans (enableWrite_irq hu)) hfall
    | configuration v => exact absurd (configured_irq v s.begun) hfall
    | sequence1 v hu => subst hu; exact absurd (lengthWritten_irq _) hfall
    | _ => exact absurd rfl hfall
  · rintro i s (rfl | rfl | rfl | rfl) hs
    · exact dataRead_lowersIrq hs fun u => .word u.latchedResult
    · exact dataRead_lowersIrq hs fun u => .half (u.latchedResult.extractLsb' 0 16)
    · exact dataRead_lowersIrq hs fun u => .byte (u.latchedResult.extractLsb' 0 8)
    · exact exec_reset_lowersIrq hs

end Sys2Proof.Proofs.Exceptions
end

section
/-! PROOFS. The record of parameters (R7, R22, R301): no event writes it, and no step. -/

namespace Sys2Proof.Proofs.Reset
open Sys2Proof Sys2Proof.Machine Sys2Proof.Proofs.BlockState Sys2Proof.Proofs.RegisterBank

theorem enableWrite_params {s t : State} (h : t = s ∨ enableWrite s = .next t) : t.params = s.params := by
  obtain rfl | h := h
  · rfl
  · obtain rfl | rfl | ⟨-, -, -, rfl⟩ := enableWrite_cases h <;> rfl

theorem controlAfterEnable_params (v : Word) (s : State) : (controlAfterEnable v s).params = s.params := by
  obtain ⟨-, hdisable⟩ := disablePart_keeps v s
  rw [controlAfterEnable_eq, storeControl_eq]
  exact (startPart_params v _).trans hdisable

theorem configured_params (v : Word) (s : State) : (configured v s).params = s.params := by
  unfold configured triggerModeChanged
  split_ifs <;> simp

theorem complete_params {s t : State} (h : complete s = .next t) : t.params = s.params := by
  obtain ⟨c, -, -, -, -, -, rfl⟩ := complete_eq_next_iff_completed.1 h
  rfl

theorem drain_params {n : Nat} {s t : State} (h : drain n s = .next t) : t.params = s.params :=
  drain_induction (P := fun s t => t.params = s.params) (fun _ => rfl)
    (fun _ _ _ hst htu => htu.trans (complete_params hst)) n s t h

/-- The parameters are the instance's: no effect of an event writes them, `RESET` included (R22, R301). -/
theorem effect_params {i : Instr} {s t : State} (h : Effect i s t) : t.params = s.params := by
  cases h with
  | dataRead v hi => exact lowerIrq_params _
  | control v hu => exact (controlAfterEnable_params v _).trans (enableWrite_params hu)
  | configuration v => exact configured_params v s
  | sequence1 v hu => subst hu; exact lengthWritten_params _
  | edge line level hext ht => exact drain_params ht
  | expire htimer ht => exact (complete_params ht :)
  | reset => exact (lowerIrq_params _).trans (disarmTimer_params s)
  | _ => rfl

theorem exec_params {i : Instr} {s t : State} (h : exec i s = .next t) : t.params = s.params :=
  (effect_params (effect_of_exec h) :)

/-- Settles O8: a delivery does not touch the parameters, and neither does the effect of its event. -/
theorem parametersNeverChange : Obligations.ParametersNeverChange := by
  unfold Obligations.ParametersNeverChange
  intro s t h
  cases hin : s.inbox with
  | nil =>
    rw [step_of_inbox_nil hin] at h
    cases h
    rfl
  | cons d rest =>
    rw [step_of_inbox_cons hin] at h
    split at h
    · cases h
    · exact (exec_params h :)

end Sys2Proof.Proofs.Reset
end

section
/-! PROOFS. `RESET` (R259, R300): what it leaves of a channel, and its next state, whole. -/

namespace Sys2Proof.Proofs.Reset
open Sys2Proof Sys2Proof.Machine Sys2Proof.Proofs.Encoding

/-- What `RESET` does to a channel, whole (R259). -/
theorem resetChannel_eq (c : Channel) :
    resetChannel c =
      if c.fed = true ∧ c.passesLeft ≠ .forever then { c with passesLeft := .finite 1 } else c := by
  obtain ⟨fed, data, pos, passes⟩ := c
  cases fed <;> cases passes <;> simp [resetChannel]

/-- `RESET` processed by an unfaulted block (R300). -/
theorem exec_reset {s : State} (hs : s.faulted = none) :
    exec .reset s = .next (resetRegisters (lowerIrq (disarmTimer s.begun))) := by
  rw [exec, execReset, onEvent_of_unfaulted hs]

/-- Settles O12: the timer, the line and the registers one after the other, each whole, and the channels by
`resetChannel_eq`. -/
theorem resetEvent : Obligations.ResetEvent := by
  unfold Obligations.ResetEvent
  refine ⟨roundTrip .reset rfl, fun s hs => ?_⟩
  rw [exec_reset hs, disarmTimer_eq, lowerIrq_eq, resetRegisters, funext resetChannel_eq]
  cases htimer : s.timer <;> simp [State.begun, Outputs.empty, htimer]

end Sys2Proof.Proofs.Reset
end
